-- ==== Sys2Proof/Word.lean ====
section
/-! DEFINITION. The command word, the complex pair a cell holds, and the signed range of a width
(spec 00_scope.md rules R9 to R11). -/

namespace Sys2Proof

/-- A command word: 32 bits, bit 0 the least significant (rules R10, R70). -/
abbrev Word := BitVec 32

/-- A complex value, the pair of integers a SYM, PLS, SMP or CROM cell holds (rule R11). -/
structure Cx where
  re : Int
  im : Int
  deriving DecidableEq, Repr

/-- `x` is a value of width `n`, signed: an integer in [-2^(n-1), 2^(n-1) - 1] (rule R9). -/
abbrev FitsSigned (n : Nat) (x : Int) : Prop :=
  -((2 ^ (n - 1) : Nat) : Int) ≤ x ∧ x ≤ ((2 ^ (n - 1) : Nat) : Int) - 1

/-- Both components of a pair are values of width `n`, signed (rule R51). -/
abbrev Cx.Fits (n : Nat) (c : Cx) : Prop := FitsSigned n c.re ∧ FitsSigned n c.im

end Sys2Proof
end

