-- ==== Sys2Proof/Syntax.lean ====
section
/-! DEFINITION. The eight commands, one constructor per row of spec/opcode_table.json
(spec 30_encoding.md rules R71 to R73). -/

namespace Sys2Proof

/-- A command with the operand its word carries (rule R72); MAP, DEMAP and SHAPE carry none. -/
inductive Instr where
  | setmode (m : BitVec 3)
  | setfst (n : BitVec 16)
  | setblen (n : BitVec 24)
  | setslen (n : BitVec 24)
  | setplen (n : BitVec 24)
  | map
  | demap
  | shape
  deriving DecidableEq, Repr

end Sys2Proof
end

