-- ==== Sys2Proof/WellFormed.lean ====
section
/-! DEFINITION. Which terms of `Instr` are commands (spec 30_encoding.md rules R73 to R75). -/

namespace Sys2Proof

/-- Every operand its field can hold is a command's, but SETMODE 7: there is no eighth
constellation (rule R75, case 4). -/
def Instr.wf : Instr → Bool
  | .setmode m => m != 7
  | .setfst _ => true
  | .setblen _ => true
  | .setslen _ => true
  | .setplen _ => true
  | .map => true
  | .demap => true
  | .shape => true

end Sys2Proof
end

