-- ==== Sys2Proof/Decode.lean ====
section
/-! DEFINITION. Decoding a command word, total and rejecting by name, and the encoder
(spec 30_encoding.md rules R70 to R75). -/

namespace Sys2Proof

/-- Why a word is no command: the five cases of rule R75, in its order. -/
inductive Illegal where
  /-- case 1: op is none of the eight opcodes -/
  | unknownOp
  /-- case 2: MAP, DEMAP or SHAPE with word[23:0] not 0 -/
  | operandBits
  /-- case 3: SETMODE with word[23:3] not 0 -/
  | setmodeReserved
  /-- case 4: SETMODE with word[2:0] = 7 -/
  | setmodeSeven
  /-- case 5: SETFST with word[23:16] not 0 -/
  | setfstReserved
  deriving DecidableEq, Repr

/-- `w[lo + len - 1 : lo]` (rule R10). -/
def bitsAt (w : Word) (lo len : Nat) : BitVec len := w.extractLsb' lo len

/-- The opcode field, word[31:24] (rule R70). -/
def opField (w : Word) : BitVec 8 := bitsAt w 24 8

/-- A Z-format command: its 24 operand bits must be 0 (rule R71). -/
def decodeZ (w : Word) (i : Instr) : Except Illegal Instr :=
  if bitsAt w 0 24 = 0 then .ok i else .error .operandBits

/-- SETMODE: word[23:3] must be 0, then m must not be 7 (rules R74, R75). -/
def decodeSetmode (w : Word) : Except Illegal Instr :=
  if bitsAt w 3 21 = 0 then
    if bitsAt w 0 3 = 7 then .error .setmodeSeven else .ok (.setmode (bitsAt w 0 3))
  else .error .setmodeReserved

/-- SETFST: word[23:16] must be 0 (rules R74, R75). -/
def decodeSetfst (w : Word) : Except Illegal Instr :=
  if bitsAt w 16 8 = 0 then .ok (.setfst (bitsAt w 0 16)) else .error .setfstReserved

/-- The decoder of rule R74: the opcode selects the row, then the row's bits are checked. -/
def decode (w : Word) : Except Illegal Instr :=
  if opField w = 0x01#8 then decodeSetmode w
  else if opField w = 0x02#8 then decodeSetfst w
  else if opField w = 0x03#8 then .ok (.setblen (bitsAt w 0 24))
  else if opField w = 0x04#8 then .ok (.setslen (bitsAt w 0 24))
  else if opField w = 0x05#8 then .ok (.setplen (bitsAt w 0 24))
  else if opField w = 0x10#8 then decodeZ w .map
  else if opField w = 0x11#8 then decodeZ w .demap
  else if opField w = 0x12#8 then decodeZ w .shape
  else .error .unknownOp

/-- The word of a command: opcode, must-be-zero bits, operand (rules R71, R73). -/
def encode : Instr → Word
  | .setmode m => 0x01#8 ++ 0#21 ++ m
  | .setfst n => 0x02#8 ++ 0#8 ++ n
  | .setblen n => 0x03#8 ++ n
  | .setslen n => 0x04#8 ++ n
  | .setplen n => 0x05#8 ++ n
  | .map => 0x10#8 ++ 0#24
  | .demap => 0x11#8 ++ 0#24
  | .shape => 0x12#8 ++ 0#24

/-- A row of the opcode table: the command's match and mask (rule R73). -/
structure TableRow where
  pattern : Word
  mask : Word
  deriving DecidableEq, Repr

/-- The row of rule R73 an instruction belongs to. -/
def Instr.row : Instr → TableRow
  | .setmode _ => ⟨0x01000000#32, 0xFFFFFFF8#32⟩
  | .setfst _ => ⟨0x02000000#32, 0xFFFF0000#32⟩
  | .setblen _ => ⟨0x03000000#32, 0xFF000000#32⟩
  | .setslen _ => ⟨0x04000000#32, 0xFF000000#32⟩
  | .setplen _ => ⟨0x05000000#32, 0xFF000000#32⟩
  | .map => ⟨0x10000000#32, 0xFFFFFFFF#32⟩
  | .demap => ⟨0x11000000#32, 0xFFFFFFFF#32⟩
  | .shape => ⟨0x12000000#32, 0xFFFFFFFF#32⟩

/-- Word `w` fits the row: (w & mask) == match (rule R73). -/
def TableRow.fits (r : TableRow) (w : Word) : Bool := w &&& r.mask == r.pattern

/-- The command word whose bits are `w`, numbered as the opcode table numbers them; bits from
`nbits` up are 0. A command is one 32-bit word and nothing longer (rule R70). -/
def tableWord (nbits w : Nat) : Option Word :=
  if nbits ≤ 32 then some (BitVec.ofNat 32 (w % 2 ^ nbits)) else none

/-- What the decoder reads from an opcode-table word; none where it refuses. -/
def decodeTableWord (nbits w : Nat) : Option Instr :=
  (tableWord nbits w).bind fun v => (decode v).toOption

end Sys2Proof
end

