-- ==== Sys2Proof/Config.lean ====
section
/-! DEFINITION. What an implementation fixes: the parameters of spec 00_scope.md rule R7, the
seven modes, and the free values of never-written cells (70_reset_and_hazards.md rule R187). -/

namespace Sys2Proof

/-- The seven constellations, in the order of the document's enumeration (rules R2, R22). -/
inductive Mode where
  | bpsk | qpsk | qam16 | qam64 | pam4 | pam8 | psk8
  deriving DecidableEq, Repr

/-- The implementation parameters of rule R7, before their constraints: `Config` of
Machine/Constellation.lean pairs them with the constraints' proof. HOST_BUS is read by no rule. -/
structure Params where
  /-- W: bits of one component of a SYM, PLS or CROM cell -/
  w : Nat
  /-- WY: bits of one component of an SMP cell -/
  wy : Nat
  /-- BCAP: cells of BIT -/
  bcap : Nat
  /-- SCAP: cells of SYM -/
  scap : Nat
  /-- PCAP: cells of PLS -/
  pcap : Nat
  /-- YCAP: cells of SMP -/
  ycap : Nat
  /-- CROM: the seven tables back to back (rule R55) -/
  crom : List Cx
  deriving DecidableEq, Repr

/-- The value a BIT cell holds that nothing has written in this epoch: stable, unknown
(rule R187; assumption log 5). Arguments: epoch, index. -/
opaque Config.launchBit : Nat → Nat → BitVec 1

/-- The same for a SYM cell: some pair of W-bit signed values. Arguments: W, epoch, index. -/
opaque Config.launchSym (w epoch i : Nat) : BitVec w × BitVec w

/-- The same for a PLS cell: some pair of W-bit signed values. Arguments: W, epoch, index. -/
opaque Config.launchPls (w epoch i : Nat) : BitVec w × BitVec w

/-- The same for an SMP cell: some pair of WY-bit signed values. Arguments: WY, epoch, index. -/
opaque Config.launchSmp (wy epoch i : Nat) : BitVec wy × BitVec wy

end Sys2Proof
end

