-- ==== Sys2Proof/Machine/Constellation.lean ====
section
/-! DEFINITION. The seven modes' numbers and sizes, the constellation ROM, the constraints on the
parameters, and the default configuration (spec 00_scope.md rules R2, R7, R8; 20_memory.md rule
R55; 41_constellation_and_map.md rules R100 to R106). -/

namespace Sys2Proof

/-- The mode number register MODE holds (rule R22). -/
def Mode.num : Mode → BitVec 3
  | .bpsk => 0
  | .qpsk => 1
  | .qam16 => 2
  | .qam64 => 3
  | .pam4 => 4
  | .pam8 => 5
  | .psk8 => 6

/-- The mode of a 3-bit number; 7 is no mode (rules R22, R75). -/
def modeOfNum (m : BitVec 3) : Option Mode :=
  if m = 0 then some .bpsk
  else if m = 1 then some .qpsk
  else if m = 2 then some .qam16
  else if m = 3 then some .qam64
  else if m = 4 then some .pam4
  else if m = 5 then some .pam8
  else if m = 6 then some .psk8
  else none

/-- K, bits per symbol (rules R2, R22). -/
def Mode.k : Mode → Nat
  | .bpsk => 1
  | .qpsk => 2
  | .qam16 => 4
  | .qam64 => 6
  | .pam4 => 2
  | .pam8 => 3
  | .psk8 => 3

/-- The number of entries of the mode's table, 2^K (rule R2). -/
def Mode.size (m : Mode) : Nat := 2 ^ m.k

/-- TBASE, the CROM cell of the mode's key 0 (rule R55). -/
def Mode.tbase : Mode → Nat
  | .bpsk => 0
  | .qpsk => 2
  | .qam16 => 6
  | .qam64 => 22
  | .pam4 => 86
  | .pam8 => 90
  | .psk8 => 98

/-- The number of CROM cells (rules R50, R55). -/
def cromCells : Nat := 106

/-- CROM cell `i`. A legal configuration has all 106 cells (rule R101), so the pair given past the
end is never read by a command (assumption log 13). -/
def Params.cromCell (p : Params) (i : Nat) : Cx := p.crom.getD i ⟨0, 0⟩

/-- `CROM(m, n)`: the symbol of key `n` in the table of mode `m` (rules R13, R55). -/
def Params.cromAt (p : Params) (m : Mode) (n : Nat) : Cx := p.cromCell (m.tbase + n)

/-- The constraints a configuration meets: rule R7's on widths and capacities, and totality,
injectivity and range of the tables (rules R101, R102, R104). -/
structure Params.Legal (p : Params) : Prop where
  width : 2 ≤ p.w
  sampleWidth : 2 * p.w + 1 + Nat.clog 2 p.pcap ≤ p.wy
  bitCells : 1 ≤ p.bcap ∧ p.bcap ≤ 2 ^ 24 - 1
  symCells : 1 ≤ p.scap ∧ p.scap ≤ 2 ^ 24 - 1
  plsCells : 1 ≤ p.pcap ∧ p.pcap ≤ 2 ^ 24 - 1
  smpCells : 1 ≤ p.ycap ∧ p.ycap ≤ 2 ^ 24 - 1
  total : p.crom.length = cromCells
  range : ∀ c ∈ p.crom, c.Fits p.w
  injective : ∀ m : Mode, ∀ a < m.size, ∀ b < m.size, p.cromAt m a = p.cromAt m b → a = b

/-- A configuration: parameters together with the proof that they are legal, so that an illegal
record is refused before any run (rules R7, R102; 93_implementation_defined.md U2, U3). -/
structure Config extends Params where
  legal : toParams.Legal
  deriving DecidableEq, Repr

/-- Default table of mode 0, BPSK (rule R105, listed values). -/
def bpskTable : List Cx :=
  [⟨16384, 0⟩, ⟨-16384, 0⟩]

/-- Default table of mode 1, QPSK (rule R105, listed values). -/
def qpskTable : List Cx :=
  [⟨11585, 11585⟩, ⟨11585, -11585⟩, ⟨-11585, 11585⟩, ⟨-11585, -11585⟩]

/-- Default table of mode 2, QAM16 (rule R105, listed values). -/
def qam16Table : List Cx :=
  [⟨-12288, -12288⟩, ⟨-12288, -4096⟩, ⟨-12288, 12288⟩, ⟨-12288, 4096⟩,
   ⟨-4096, -12288⟩, ⟨-4096, -4096⟩, ⟨-4096, 12288⟩, ⟨-4096, 4096⟩,
   ⟨12288, -12288⟩, ⟨12288, -4096⟩, ⟨12288, 12288⟩, ⟨12288, 4096⟩,
   ⟨4096, -12288⟩, ⟨4096, -4096⟩, ⟨4096, 12288⟩, ⟨4096, 4096⟩]

/-- Default table of mode 3, QAM64, keys 0 to 15 (rule R105, listed values). -/
def qam64Keys0 : List Cx :=
  [⟨-14336, -14336⟩, ⟨-14336, -10240⟩, ⟨-14336, -2048⟩, ⟨-14336, -6144⟩,
   ⟨-14336, 14336⟩, ⟨-14336, 10240⟩, ⟨-14336, 2048⟩, ⟨-14336, 6144⟩,
   ⟨-10240, -14336⟩, ⟨-10240, -10240⟩, ⟨-10240, -2048⟩, ⟨-10240, -6144⟩,
   ⟨-10240, 14336⟩, ⟨-10240, 10240⟩, ⟨-10240, 2048⟩, ⟨-10240, 6144⟩]

/-- Default table of mode 3, QAM64, keys 16 to 31 (rule R105, listed values). -/
def qam64Keys16 : List Cx :=
  [⟨-2048, -14336⟩, ⟨-2048, -10240⟩, ⟨-2048, -2048⟩, ⟨-2048, -6144⟩,
   ⟨-2048, 14336⟩, ⟨-2048, 10240⟩, ⟨-2048, 2048⟩, ⟨-2048, 6144⟩,
   ⟨-6144, -14336⟩, ⟨-6144, -10240⟩, ⟨-6144, -2048⟩, ⟨-6144, -6144⟩,
   ⟨-6144, 14336⟩, ⟨-6144, 10240⟩, ⟨-6144, 2048⟩, ⟨-6144, 6144⟩]

/-- Default table of mode 3, QAM64, keys 32 to 47 (rule R105, listed values). -/
def qam64Keys32 : List Cx :=
  [⟨14336, -14336⟩, ⟨14336, -10240⟩, ⟨14336, -2048⟩, ⟨14336, -6144⟩,
   ⟨14336, 14336⟩, ⟨14336, 10240⟩, ⟨14336, 2048⟩, ⟨14336, 6144⟩,
   ⟨10240, -14336⟩, ⟨10240, -10240⟩, ⟨10240, -2048⟩, ⟨10240, -6144⟩,
   ⟨10240, 14336⟩, ⟨10240, 10240⟩, ⟨10240, 2048⟩, ⟨10240, 6144⟩]

/-- Default table of mode 3, QAM64, keys 48 to 63 (rule R105, listed values). -/
def qam64Keys48 : List Cx :=
  [⟨2048, -14336⟩, ⟨2048, -10240⟩, ⟨2048, -2048⟩, ⟨2048, -6144⟩,
   ⟨2048, 14336⟩, ⟨2048, 10240⟩, ⟨2048, 2048⟩, ⟨2048, 6144⟩,
   ⟨6144, -14336⟩, ⟨6144, -10240⟩, ⟨6144, -2048⟩, ⟨6144, -6144⟩,
   ⟨6144, 14336⟩, ⟨6144, 10240⟩, ⟨6144, 2048⟩, ⟨6144, 6144⟩]

/-- Default table of mode 3, QAM64 (rule R105). -/
def qam64Table : List Cx := qam64Keys0 ++ qam64Keys16 ++ qam64Keys32 ++ qam64Keys48

/-- Default table of mode 4, PAM4 (rule R105, listed values). -/
def pam4Table : List Cx :=
  [⟨-12288, 0⟩, ⟨-4096, 0⟩, ⟨12288, 0⟩, ⟨4096, 0⟩]

/-- Default table of mode 5, PAM8 (rule R105, listed values). -/
def pam8Table : List Cx :=
  [⟨-14336, 0⟩, ⟨-10240, 0⟩, ⟨-2048, 0⟩, ⟨-6144, 0⟩,
   ⟨14336, 0⟩, ⟨10240, 0⟩, ⟨2048, 0⟩, ⟨6144, 0⟩]

/-- Default table of mode 6, PSK8 (rule R105, listed values). -/
def psk8Table : List Cx :=
  [⟨16384, 0⟩, ⟨11585, 11585⟩, ⟨-11585, 11585⟩, ⟨0, 16384⟩,
   ⟨11585, -11585⟩, ⟨0, -16384⟩, ⟨-16384, 0⟩, ⟨-11585, -11585⟩]

/-- The default contents of CROM, the seven tables in mode order (rules R55, R105). -/
def defaultCrom : List Cx :=
  bpskTable ++ qpskTable ++ qam16Table ++ qam64Table ++ pam4Table ++ pam8Table ++ psk8Table

/-- The default parameters of rule R7. -/
def defaultParams : Params where
  w := 16
  wy := 48
  bcap := 24576
  scap := 4096
  pcap := 256
  ycap := 65536
  crom := defaultCrom

/-- The default parameters meet every constraint (rules R7, R105). -/
theorem defaultParams_legal : defaultParams.Legal where
  width := by decide
  sampleWidth := by
    have h : Nat.clog 2 256 = 8 := by
      rw [show (256 : Nat) = 2 ^ 8 from rfl]; exact Nat.clog_pow 2 8 (by decide)
    show 2 * 16 + 1 + Nat.clog 2 256 ≤ 48
    omega
  bitCells := by decide
  symCells := by decide
  plsCells := by decide
  smpCells := by decide
  total := by decide
  range := by decide
  injective := by
    intro m
    cases m <;> decide +kernel

/-- The default configuration: rule R7's defaults with rule R105's tables. -/
def defaultConfig : Config := ⟨defaultParams, defaultParams_legal⟩

end Sys2Proof
end

