-- ==== Sys2Proof/Machine/State.lean ====
section
/-! DEFINITION. The machine's state as plain data, the host's moves, the reasons a step can stop,
and the state after reset (spec 10_state.md, 20_memory.md, 70_reset_and_hazards.md). -/

namespace Sys2Proof.Machine

/-- The five data spaces (rule R50). -/
inductive Space where
  | crom | bit | sym | pls | smp
  deriving DecidableEq, Repr

/-- The nine registers, in the order of their numbers 0 to 8 (rule R21). -/
inductive Reg where
  | mode | fst | blen | slen | plen | ylen | err | fcmd | cp
  deriving DecidableEq, Repr

/-- The values register ERR takes (rule R161). Code 2, OutOfRange, is reserved and never written
(rule R172), so it is no value of this type (93_implementation_defined.md U14). -/
inductive ErrCode where
  /-- 0: no fault since reset -/
  | none
  /-- 1: raised by MAP and SHAPE (rule R162) -/
  | invalidInput
  /-- 3: raised by a word that is no command (rule R163) -/
  | illegalCommand
  /-- 4: raised by SETBLEN, SETSLEN, SETPLEN, MAP, DEMAP, SHAPE (rule R164) -/
  | capacity
  deriving DecidableEq, Repr

/-- A data memory: the cells written since power-up, by strictly rising index, and the number of
times its contents have become unspecified (rules R186, R187). An unlisted cell is one nothing has
written in this epoch (assumption log 12). -/
structure Memory (α : Type) where
  cells : List (Nat × α)
  epoch : Nat
  deriving DecidableEq, Repr

/-- One move of the host (rule R195). There is no move that writes CROM, SMP or a register
(rules R31, R58). -/
inductive HostMove where
  /-- write one cell of BIT (rule R58) -/
  | writeBit (i : Nat) (v : BitVec 1)
  /-- write one cell of SYM (rule R58) -/
  | writeSym (i : Nat) (v : Cx)
  /-- write one cell of PLS (rule R58) -/
  | writePls (i : Nat) (v : Cx)
  /-- read one cell of any space (rule R59) -/
  | readCell (sp : Space) (i : Nat)
  /-- read a register (rules R31, R59) -/
  | readReg (r : Reg)
  /-- issue a command word -/
  | issue (w : Word)
  /-- assert and release reset between commands (rule R185) -/
  | reset
  /-- issue a command word and assert reset while it executes (rule R186) -/
  | resetDuring (w : Word)
  deriving DecidableEq, Repr

/-- What a host read returns (rule R59). -/
inductive ReadValue where
  | bit (v : BitVec 1)
  | pair (v : Cx)
  /-- a register's value, unsigned (rule R21) -/
  | reg (v : Nat)
  deriving DecidableEq, Repr

/-- The state: the configuration (constant, assumption log 1), the nine registers (rule R21), the
four writable data memories (rule R50; CROM is `cfg.crom`), and the host's side of the run. -/
structure State where
  cfg : Config
  /-- MODE, register 0 -/
  mode : Mode
  /-- FST, register 1 -/
  fst : BitVec 16
  /-- BLEN, register 2 -/
  blen : BitVec 24
  /-- SLEN, register 3 -/
  slen : BitVec 24
  /-- PLEN, register 4 -/
  plen : BitVec 24
  /-- YLEN, register 5 -/
  ylen : BitVec 24
  /-- ERR, register 6 -/
  err : ErrCode
  /-- FCMD, register 7 -/
  fcmd : Word
  /-- CP, register 8 -/
  cp : BitVec 32
  bit : Memory (BitVec 1)
  sym : Memory Cx
  pls : Memory Cx
  smp : Memory Cx
  /-- the host's moves still to come, the next one first (rules R15, R195; assumption log 3) -/
  script : List HostMove
  /-- what the host's reads have returned, oldest first (assumption log 3) -/
  transcript : List ReadValue
  deriving DecidableEq, Repr

/-- Reasons a step stops. A fault of the BLOCK (rule R160) is none of these: it is a next state. -/
inductive Fault where
  /-- Raised by a host read or write at an index outside its space, an access rules R52 and R58 say
  does not exist. Safe: no run of the hardware makes it. -/
  | noSuchCell (sp : Space) (i : Nat)
  deriving DecidableEq, Repr

/-- Moves and commands the model gives no meaning. -/
inductive Refusal where
  /-- Raised by an arm of exec whose command has no meaning yet; none is left. Safe. -/
  | notModelled (mnemonic : String)
  /-- Raised by a host write of a value outside the cell's domain, a move the host does not have
  (rules R51, R58). Safe: no run of the hardware makes it. -/
  | valueOutsideCell (sp : Space) (i : Nat) (v : Cx)
  deriving DecidableEq, Repr

/-- A memory nothing has written since power-up (rule R187). -/
def unwritten (α : Type) : Memory α := ⟨[], 0⟩

/-- The machine right after its first reset (rule R37): registers 0, no data cell written, no host
move given (assumption logs 2, 4, 6). -/
def State.reset : State where
  cfg := defaultConfig
  mode := .bpsk
  fst := 0
  blen := 0
  slen := 0
  plen := 0
  ylen := 0
  err := .none
  fcmd := 0
  cp := 0
  bit := unwritten (BitVec 1)
  sym := unwritten Cx
  pls := unwritten Cx
  smp := unwritten Cx
  script := []
  transcript := []

end Sys2Proof.Machine
end

