-- ==== Sys2Proof/Machine/Flags.lean ====
section
/-! DEFINITION. The status registers. The block has no condition codes (spec 10_state.md rule R32);
its one flag-like register is ERR (rule R28), beside the command counter CP (rule R29) and FCMD. -/

namespace Sys2Proof.Machine

/-- The code ERR holds, as the host reads it (rule R161). -/
def ErrCode.num : ErrCode → BitVec 3
  | .none => 0
  | .invalidInput => 1
  | .illegalCommand => 3
  | .capacity => 4

/-- The register numbers (rule R21). -/
def Reg.num : Reg → Nat
  | .mode => 0
  | .fst => 1
  | .blen => 2
  | .slen => 3
  | .plen => 4
  | .ylen => 5
  | .err => 6
  | .fcmd => 7
  | .cp => 8

/-- A register's value as the host reads it, unsigned (rules R21, R31). -/
def State.readReg (s : State) : Reg → Nat
  | .mode => s.mode.num.toNat
  | .fst => s.fst.toNat
  | .blen => s.blen.toNat
  | .slen => s.slen.toNat
  | .plen => s.plen.toNat
  | .ylen => s.ylen.toNat
  | .err => s.err.num.toNat
  | .fcmd => s.fcmd.toNat
  | .cp => s.cp.toNat

/-- The end of every command that completes: CP counts it, modulo 2^32 (rule R29). -/
def State.complete (s : State) : State := { s with cp := s.cp + 1 }

end Sys2Proof.Machine
end

