-- ==== Sys2Proof/Machine/Ops.lean ====
section
/-! DEFINITION. The named operations over memories and registers, taking a fault, and reset
(spec 20_memory.md, 60_exceptions.md rule R165, 70_reset_and_hazards.md rules R185, R186). -/

namespace Sys2Proof.Machine

/-! ### Cells -/

/-- The value listed for index `i`. -/
def lookupCell {α : Type} : List (Nat × α) → Nat → Option α
  | [], _ => none
  | (a, v) :: rest, i => if a = i then some v else lookupCell rest i

/-- Write one whole cell, keeping the indices strictly rising (rule R52). -/
def insertCell {α : Type} (i : Nat) (v : α) : List (Nat × α) → List (Nat × α)
  | [] => [(i, v)]
  | (a, u) :: rest =>
    if i < a then (i, v) :: (a, u) :: rest
    else if i = a then (i, v) :: rest
    else (a, u) :: insertCell i v rest

/-- The values of a sequence at indices `i`, `i + 1`, ... -/
def numberFrom {α : Type} (i : Nat) : List α → List (Nat × α)
  | [] => []
  | v :: vs => (i, v) :: numberFrom (i + 1) vs

/-- Every index is at least `lo` and the indices strictly rise. -/
def risingFrom {α : Type} (lo : Nat) : List (Nat × α) → Bool
  | [] => true
  | (a, _) :: rest => decide (lo ≤ a) && risingFrom (a + 1) rest

/-- The canonical form: indices strictly rising (assumption log 12). -/
def Memory.wf {α : Type} (m : Memory α) : Bool := risingFrom 0 m.cells

/-- What a memory lists for a cell; none where nothing has written it in this epoch. -/
def Memory.read {α : Type} (m : Memory α) (i : Nat) : Option α := lookupCell m.cells i

/-- `MemWrite(space, i, v)`: one whole cell (rules R13, R52). -/
def Memory.write {α : Type} (m : Memory α) (i : Nat) (v : α) : Memory α :=
  { m with cells := insertCell i v m.cells }

/-- Write a result sequence to cells 0, 1, ..., as MAP, DEMAP and SHAPE do; cells at and beyond its
length keep their values (rule R69; assumption log 15). -/
def Memory.writeSeq {α : Type} (m : Memory α) (vs : List α) : Memory α :=
  { m with cells := numberFrom 0 vs ++ m.cells.filter (fun c => decide (vs.length ≤ c.1)) }

/-- Every cell becomes unspecified: never-written in a new epoch (rules R186, R187). -/
def Memory.forget {α : Type} (m : Memory α) : Memory α := ⟨[], m.epoch + 1⟩

/-! ### Cell reads: `MemRead(space, i)` (rules R13, R52); a never-written cell holds a stable
unknown value of its type (rule R187) -/

/-- A pair of N-bit signed values as a complex value. -/
def pairValue {n : Nat} (v : BitVec n × BitVec n) : Cx := ⟨v.1.toInt, v.2.toInt⟩

def State.readBit (s : State) (i : Nat) : BitVec 1 :=
  (s.bit.read i).getD (Config.launchBit s.bit.epoch i)

def State.readSym (s : State) (i : Nat) : Cx :=
  (s.sym.read i).getD (pairValue (Config.launchSym s.cfg.w s.sym.epoch i))

def State.readPls (s : State) (i : Nat) : Cx :=
  (s.pls.read i).getD (pairValue (Config.launchPls s.cfg.w s.pls.epoch i))

def State.readSmp (s : State) (i : Nat) : Cx :=
  (s.smp.read i).getD (pairValue (Config.launchSmp s.cfg.wy s.smp.epoch i))

/-- The number of cells of a space (rule R50). -/
def Space.cells (c : Config) : Space → Nat
  | .crom => cromCells
  | .bit => c.bcap
  | .sym => c.scap
  | .pls => c.pcap
  | .smp => c.ycap

/-- A cell's value as the host reads it (rule R59). -/
def State.readCell (s : State) (sp : Space) (i : Nat) : ReadValue :=
  match sp with
  | .crom => .pair (s.cfg.cromCell i)
  | .bit => .bit (s.readBit i)
  | .sym => .pair (s.readSym i)
  | .pls => .pair (s.readPls i)
  | .smp => .pair (s.readSmp i)

/-! ### Writes of registers and memories -/

def State.setMode (s : State) (m : Mode) : State := { s with mode := m }
def State.setFst (s : State) (n : BitVec 16) : State := { s with fst := n }
def State.setBlen (s : State) (n : BitVec 24) : State := { s with blen := n }
def State.setSlen (s : State) (n : BitVec 24) : State := { s with slen := n }
def State.setPlen (s : State) (n : BitVec 24) : State := { s with plen := n }
def State.setYlen (s : State) (n : BitVec 24) : State := { s with ylen := n }
def State.setBit (s : State) (m : Memory (BitVec 1)) : State := { s with bit := m }
def State.setSym (s : State) (m : Memory Cx) : State := { s with sym := m }
def State.setPls (s : State) (m : Memory Cx) : State := { s with pls := m }
def State.setSmp (s : State) (m : Memory Cx) : State := { s with smp := m }
def State.setScript (s : State) (ms : List HostMove) : State := { s with script := ms }
def State.record (s : State) (v : ReadValue) : State :=
  { s with transcript := s.transcript ++ [v] }

/-! ### Faults and reset -/

/-- Fault entry: ERR takes the code, FCMD the command word, and nothing else changes
(rule R165). There is no return from a fault but reset (rule R168). -/
def State.raiseFault (s : State) (code : ErrCode) (w : Word) : State :=
  { s with err := code, fcmd := w }

/-- `raise Fault(code)` by the command `i`: the word that faulted is `i`'s (rules R13, R165;
assumption log 9). -/
def raise (code : ErrCode) (i : Instr) (s : State) : Host.Outcome State Fault Refusal :=
  .next (s.raiseFault code (encode i))

/-- Reset: the nine registers take their reset values; memories, CROM and the host's side stay
(rules R37, R185). -/
def State.resetRegisters (s : State) : State :=
  { s with mode := .bpsk, fst := 0, blen := 0, slen := 0, plen := 0, ylen := 0,
           err := .none, fcmd := 0, cp := 0 }

/-- The one space a command writes becomes unspecified: SYM for MAP, BIT for DEMAP, SMP for SHAPE
(rules R69, R186). -/
def State.forgetOutput (s : State) : Instr → State
  | .setmode _ => s
  | .setfst _ => s
  | .setblen _ => s
  | .setslen _ => s
  | .setplen _ => s
  | .map => s.setSym s.sym.forget
  | .demap => s.setBit s.bit.forget
  | .shape => s.setSmp s.smp.forget

end Sys2Proof.Machine
end

