-- ==== Sys2Proof/Machine/Operands.lean ====
section
/-! DEFINITION. What a command computes from its implicit operands: bit groups and keys, the
nearest-neighbour decision, complex arithmetic and the output sample
(spec 00_scope.md rules R11, R12; 42_demap.md; 43_pulse_and_shape.md). -/

namespace Sys2Proof

/-! ### Complex arithmetic, exact (rule R11) -/

def Cx.zero : Cx := ⟨0, 0⟩

def Cx.add (a b : Cx) : Cx := ⟨a.re + b.re, a.im + b.im⟩

/-- No conjugation (rule R11). -/
def Cx.mul (a b : Cx) : Cx := ⟨a.re * b.re - a.im * b.im, a.re * b.im + a.im * b.re⟩

end Sys2Proof

namespace Sys2Proof.Machine

/-! ### Keys and bit groups, most significant bit first (rule R12) -/

/-- The key a group of bits spells: MAP's inner loop (rule R110). -/
def keyFrom (bits : List (BitVec 1)) : Nat := bits.foldl (fun key b => 2 * key + b.toNat) 0

/-- `bits_K(n)`: element i is (n >> (K-1-i)) & 1 (rules R12, R124). -/
def bitsOfKey (k n : Nat) : List (BitVec 1) :=
  (List.range k).map fun i => BitVec.ofNat 1 ((n >>> (k - 1 - i)) &&& 1)

/-- Group `g` of the bit sequence: BIT[g*K + i] for i from 0 to K-1 (rules R69, R110). -/
def State.bitGroup (s : State) (g : Nat) : List (BitVec 1) :=
  (List.range s.mode.k).map fun i => s.readBit (g * s.mode.k + i)

/-- The symbol MAP writes for group `g` (rule R110). -/
def State.symbolOfGroup (s : State) (g : Nat) : Cx :=
  s.cfg.cromAt s.mode (keyFrom (s.bitGroup g))

/-! ### The decision (rules R120 to R123) -/

/-- d2(s, c), the squared Euclidean distance in exact integers (rule R120). -/
def dist2 (s c : Cx) : Int := (s.re - c.re) * (s.re - c.re) + (s.im - c.im) * (s.im - c.im)

/-- The scan of rule R122 over `count` keys from `n` on, with the best key and distance so far: only
a strictly smaller distance replaces the candidate (rule R123). -/
def scanKeys (p : Params) (m : Mode) (s : Cx) (count n best : Nat) (bestd : Int) : Nat :=
  match count with
  | 0 => best
  | count + 1 =>
    if dist2 s (p.cromAt m n) < bestd then
      scanKeys p m s count (n + 1) n (dist2 s (p.cromAt m n))
    else scanKeys p m s count (n + 1) best bestd

/-- decide(m, s): the lowest key among the nearest table entries (rules R122, R123). -/
def nearestKey (p : Params) (m : Mode) (s : Cx) : Nat :=
  scanKeys p m s (m.size - 1) 1 0 (dist2 s (p.cromAt m 0))

/-- The bits DEMAP writes for symbol `j` (rules R121, R124). -/
def State.bitsOfSymbol (s : State) (j : Nat) : List (BitVec 1) :=
  bitsOfKey s.mode.k (nearestKey s.cfg.toParams s.mode (s.readSym j))

/-! ### The shaper's sample (rules R140, R142) -/

/-- The term symbol `k` adds to output sample `m`: SYM[k] * PLS[m - k*FST] where that tap exists. -/
def State.addTerm (s : State) (m : Nat) (acc : Cx) (k : Nat) : Cx :=
  if k * s.fst.toNat ≤ m ∧ m - k * s.fst.toNat < s.plen.toNat then
    acc.add ((s.readSym k).mul (s.readPls (m - k * s.fst.toNat)))
  else acc

/-- Output sample `m` of SHAPE, the accumulation over all symbols (rule R140). -/
def State.sample (s : State) (m : Nat) : Cx :=
  (List.range s.slen.toNat).foldl (s.addTerm m) Cx.zero

/-- Y = (SLEN - 1) * FST + PLEN, computed without wrap (rule R140). -/
def State.shapeLength (s : State) : Nat := (s.slen.toNat - 1) * s.fst.toNat + s.plen.toNat

end Sys2Proof.Machine
end

