-- ==== Sys2Proof/Machine/ConfigCommands.lean ====
section
/-! DEFINITION. SETMODE, SETFST, SETBLEN, SETSLEN, SETPLEN (spec 40_config_commands.md rules R90 to
R94). None reads or writes a data memory. -/

namespace Sys2Proof.Machine

/-- SETMODE m (rule R90): m = 7 faults IllegalCommand. -/
def execSetmode (m : BitVec 3) (s : State) : Host.Outcome State Fault Refusal :=
  match modeOfNum m with
  | none => raise .illegalCommand (.setmode m) s
  | some md => .next (s.setMode md).complete

/-- SETFST n (rule R91): every n is accepted, 0 meaning "not set". -/
def execSetfst (n : BitVec 16) (s : State) : Host.Outcome State Fault Refusal :=
  .next (s.setFst n).complete

/-- SETBLEN n (rule R92): n > BCAP faults Capacity. -/
def execSetblen (n : BitVec 24) (s : State) : Host.Outcome State Fault Refusal :=
  if s.cfg.bcap < n.toNat then raise .capacity (.setblen n) s
  else .next (s.setBlen n).complete

/-- SETSLEN n (rule R93): n > SCAP faults Capacity. -/
def execSetslen (n : BitVec 24) (s : State) : Host.Outcome State Fault Refusal :=
  if s.cfg.scap < n.toNat then raise .capacity (.setslen n) s
  else .next (s.setSlen n).complete

/-- SETPLEN n (rule R94): n > PCAP faults Capacity. -/
def execSetplen (n : BitVec 24) (s : State) : Host.Outcome State Fault Refusal :=
  if s.cfg.pcap < n.toNat then raise .capacity (.setplen n) s
  else .next (s.setPlen n).complete

end Sys2Proof.Machine
end

