-- ==== Sys2Proof/Machine/DemapCommand.lean ====
section
/-! DEFINITION. DEMAP, the document's demodulate (spec 42_demap.md rule R121). -/

namespace Sys2Proof.Machine

/-- The bits DEMAP writes, K for each of the symbols 0 to n-1, in order (rule R121). -/
def State.demappedBits (s : State) (n : Nat) : List (BitVec 1) :=
  (List.range n).flatMap s.bitsOfSymbol

/-- DEMAP (rule R121): Capacity when SLEN*K > BCAP; no other fault. -/
def execDemap (s : State) : Host.Outcome State Fault Refusal :=
  let m := s.slen.toNat * s.mode.k
  if s.cfg.bcap < m then raise .capacity .demap s
  else .next ((s.setBit (s.bit.writeSeq (s.demappedBits s.slen.toNat))).setBlen
    (BitVec.ofNat 24 m)).complete

end Sys2Proof.Machine
end

