-- ==== Sys2Proof/Machine/MapCommand.lean ====
section
/-! DEFINITION. MAP, the document's modulate (spec 41_constellation_and_map.md rule R110). -/

namespace Sys2Proof.Machine

/-- The symbols MAP writes, one for each of the N groups, in group order (rule R110). -/
def State.mappedSymbols (s : State) (n : Nat) : List Cx := (List.range n).map s.symbolOfGroup

/-- MAP (rule R110): InvalidInput when BLEN is no multiple of K, then Capacity when N > SCAP. -/
def execMap (s : State) : Host.Outcome State Fault Refusal :=
  let n := s.blen.toNat / s.mode.k
  if s.blen.toNat % s.mode.k ≠ 0 then raise .invalidInput .map s
  else if s.cfg.scap < n then raise .capacity .map s
  else .next ((s.setSym (s.sym.writeSeq (s.mappedSymbols n))).setSlen (BitVec.ofNat 24 n)).complete

end Sys2Proof.Machine
end

