-- ==== Sys2Proof/Machine/ShapeCommand.lean ====
section
/-! DEFINITION. SHAPE, the document's shape (spec 43_pulse_and_shape.md rule R140). -/

namespace Sys2Proof.Machine

/-- The samples SHAPE writes, one for each output index below `y` (rule R140). -/
def State.shapedSamples (s : State) (y : Nat) : List Cx := (List.range y).map s.sample

/-- SHAPE (rule R140): InvalidInput when FST, SLEN or PLEN is 0, then Capacity when Y > YCAP. -/
def execShape (s : State) : Host.Outcome State Fault Refusal :=
  let y := s.shapeLength
  if s.fst = 0 ∨ s.slen = 0 ∨ s.plen = 0 then raise .invalidInput .shape s
  else if s.cfg.ycap < y then raise .capacity .shape s
  else .next ((s.setSmp (s.smp.writeSeq (s.shapedSamples y))).setYlen (BitVec.ofNat 24 y)).complete

end Sys2Proof.Machine
end

