-- ==== Sys2Proof/Machine/Dispatch.lean ====
section
/-! DEFINITION. One arm per command: the meaning of a command the block has taken
(spec 30_encoding.md rule R73). -/

namespace Sys2Proof.Machine

def exec (i : Instr) (s : State) : Host.Outcome State Fault Refusal :=
  match i with
  | .setmode m => Sys2Proof.Machine.execSetmode m s
  | .setfst n => Sys2Proof.Machine.execSetfst n s
  | .setblen n => Sys2Proof.Machine.execSetblen n s
  | .setslen n => Sys2Proof.Machine.execSetslen n s
  | .setplen n => Sys2Proof.Machine.execSetplen n s
  | .map => Sys2Proof.Machine.execMap s
  | .demap => Sys2Proof.Machine.execDemap s
  | .shape => Sys2Proof.Machine.execShape s

end Sys2Proof.Machine
end

