-- ==== Sys2Proof/Machine/HostMoves.lean ====
section
/-! DEFINITION. What each move of the host does: cell writes and reads, the issue of a command word,
reset (spec 20_memory.md rules R58 to R60, 60_exceptions.md rule R167, 70_reset_and_hazards.md rules
R185, R186, R195). -/

namespace Sys2Proof.Machine

/-- The host issues a word: a faulted block does not take it (rule R167); a word that is no command
faults IllegalCommand (rule R75); any other word runs its command. -/
def issue (w : Word) (s : State) : Host.Outcome State Fault Refusal :=
  if s.err = .none then
    match decode w with
    | .ok i => exec i s
    | .error _ => .next (s.raiseFault .illegalCommand w)
  else .next s

/-- The host writes a BIT cell (rule R58). -/
def writeBit (i : Nat) (v : BitVec 1) (s : State) : Host.Outcome State Fault Refusal :=
  if i < s.cfg.bcap then .next (s.setBit (s.bit.write i v)) else .fault (.noSuchCell .bit i)

/-- The host writes a SYM cell, a pair of W-bit signed values (rule R58). -/
def writeSym (i : Nat) (v : Cx) (s : State) : Host.Outcome State Fault Refusal :=
  if i < s.cfg.scap then
    if v.Fits s.cfg.w then .next (s.setSym (s.sym.write i v))
    else .refused (.valueOutsideCell .sym i v)
  else .fault (.noSuchCell .sym i)

/-- The host writes a PLS cell, a pair of W-bit signed values (rule R58). -/
def writePls (i : Nat) (v : Cx) (s : State) : Host.Outcome State Fault Refusal :=
  if i < s.cfg.pcap then
    if v.Fits s.cfg.w then .next (s.setPls (s.pls.write i v))
    else .refused (.valueOutsideCell .pls i v)
  else .fault (.noSuchCell .pls i)

/-- The host reads a cell: the value goes to the host and nothing else changes (rule R59). -/
def readCell (sp : Space) (i : Nat) (s : State) : Host.Outcome State Fault Refusal :=
  if i < sp.cells s.cfg then .next (s.record (s.readCell sp i))
  else .fault (.noSuchCell sp i)

/-- The host reads a register: the value goes to the host and nothing else changes
(rules R31, R59). -/
def readRegister (r : Reg) (s : State) : Host.Outcome State Fault Refusal :=
  .next (s.record (.reg (s.readReg r)))

/-- Reset asserted while the command of word `w` executes: registers as after reset, the command's
output space unspecified, the rest unchanged. A faulted block executes no command and an illegal
word writes no space (rules R167, R186; assumption log 6). -/
def resetDuring (w : Word) (s : State) : Host.Outcome State Fault Refusal :=
  if s.err = .none then
    match decode w with
    | .ok i => .next (s.forgetOutput i).resetRegisters
    | .error _ => .next s.resetRegisters
  else .next s.resetRegisters

/-- One move of the host (rule R195). -/
def takeMove (mv : HostMove) (s : State) : Host.Outcome State Fault Refusal :=
  match mv with
  | .writeBit i v => writeBit i v s
  | .writeSym i v => writeSym i v s
  | .writePls i v => writePls i v s
  | .readCell sp i => readCell sp i s
  | .readReg r => readRegister r s
  | .issue w => issue w s
  | .reset => .next s.resetRegisters
  | .resetDuring w => resetDuring w s

/-- The machine between moves: the host's next move, or, with none left, the block idles and holds
its state (rules R180, R195, R196; assumption log 4). -/
def nextMove (s : State) : Host.Outcome State Fault Refusal :=
  match s.script with
  | [] => .next s
  | mv :: rest => takeMove mv (s.setScript rest)

/-- `s` with `w` as the word the host issues next; unchanged where `w` is wider than a command word
(rule R70). -/
def placeWord (s : State) (nbits w : Nat) : State :=
  match tableWord nbits w with
  | some v => s.setScript (.issue v :: s.script)
  | none => s

end Sys2Proof.Machine
end

