-- ==== Sys2Proof/Machine/Assembler.lean ====
section
/-! DEFINITION. The textual form of commands: one line of assembler to a command
(spec 30_encoding.md rules R77, R78). The block never reads text; this is the notation of the spec's
programs. -/

namespace Sys2Proof.Machine

/-- What one line of text is (rule R77). -/
inductive AsmLine where
  /-- blank, or a comment alone: ignored -/
  | blank
  | command (i : Instr)
  /-- not of the form of rule R77 -/
  | malformed
  deriving DecidableEq, Repr

/-- The value of a digit in a base up to 16. -/
def digitValue (base : Nat) (c : Char) : Option Nat :=
  let v :=
    if '0'.toNat ≤ c.toNat ∧ c.toNat ≤ '9'.toNat then c.toNat - '0'.toNat
    else if 'A'.toNat ≤ c.toNat ∧ c.toNat ≤ 'F'.toNat then c.toNat - 'A'.toNat + 10
    else if 'a'.toNat ≤ c.toNat ∧ c.toNat ≤ 'f'.toNat then c.toNat - 'a'.toNat + 10
    else base
  if v < base then some v else none

/-- The value of a run of digits, most significant first, after `acc`. -/
def digitsValue (base acc : Nat) : List Char → Option Nat
  | [] => some acc
  | c :: cs => (digitValue base c).bind fun d => digitsValue base (base * acc + d) cs

/-- An operand: unsigned decimal, or hexadecimal with the prefix 0x (rule R77). -/
def asmNumber : List Char → Option Nat
  | [] => none
  | '0' :: 'x' :: [] => none
  | '0' :: 'x' :: ds => digitsValue 16 0 ds
  | ds => digitsValue 10 0 ds

/-- The mode names, aliases of SETMODE's operands 0 to 6 (rule R78). -/
def modeNames : List (List Char × Nat) :=
  [("BPSK".toList, 0), ("QPSK".toList, 1), ("QAM16".toList, 2), ("QAM64".toList, 3),
   ("PAM4".toList, 4), ("PAM8".toList, 5), ("PSK8".toList, 6)]

/-- SETMODE's operand: a mode name or a number (rule R78). -/
def asmMode (cs : List Char) : Option Nat := (modeNames.lookup cs).orElse fun _ => asmNumber cs

/-- A command with the operand `v`, where it fits the field of `n` bits (rule R71). -/
def asmOperand (n : Nat) (f : BitVec n → Instr) (v : Option Nat) : AsmLine :=
  match v with
  | some v => if v < 2 ^ n then .command (f (BitVec.ofNat n v)) else .malformed
  | none => .malformed

/-- The text of a line before its comment, without the spaces that end it (rule R77). -/
def asmCode (line : List Char) : List Char :=
  ((line.takeWhile (· != ';')).reverse.dropWhile (· == ' ')).reverse

/-- One line of text (rules R77, R78). -/
def assembleLine (line : List Char) : AsmLine :=
  let code := asmCode line
  let name := code.takeWhile (· != ' ')
  let operand := code.drop (name.length + 1)
  if code = [] then .blank
  else if code = "MAP".toList then .command .map
  else if code = "DEMAP".toList then .command .demap
  else if code = "SHAPE".toList then .command .shape
  else if name = "SETMODE".toList then asmOperand 3 .setmode (asmMode operand)
  else if name = "SETFST".toList then asmOperand 16 .setfst (asmNumber operand)
  else if name = "SETBLEN".toList then asmOperand 24 .setblen (asmNumber operand)
  else if name = "SETSLEN".toList then asmOperand 24 .setslen (asmNumber operand)
  else if name = "SETPLEN".toList then asmOperand 24 .setplen (asmNumber operand)
  else .malformed

end Sys2Proof.Machine
end

