-- ==== Sys2Proof/Machine/Reference.lean ====
section
/-! DEFINITION. The other formulations the spec gives of what the units compute: the key as a sum, the
decision as a minimum, the shaper as upsampling and convolution and as a polyphase filter
(spec 00_scope.md rule R12; 42_demap.md rule R122; 43_pulse_and_shape.md rules R141, R142, R145). No
meaning uses them: statements compare the meanings with them. -/

namespace Sys2Proof.Machine

/-- The sum of `f 0, ..., f (n - 1)`. -/
def sumCx (n : Nat) (f : Nat → Cx) : Cx := (List.range n).foldl (fun acc i => acc.add (f i)) Cx.zero

/-- key(b, g, K), the sum of b[g*K + i] * 2^(K-1-i) (rule R12). -/
def groupKey (b : Nat → BitVec 1) (g k : Nat) : Nat :=
  ((List.range k).map fun i => (b (g * k + i)).toNat * 2 ^ (k - 1 - i)).sum

/-- No table entry is nearer to `s` than that of key `n` (rule R122). -/
def IsNearest (p : Params) (m : Mode) (s : Cx) (n : Nat) : Prop :=
  n < m.size ∧ ∀ a < m.size, dist2 s (p.cromAt m n) ≤ dist2 s (p.cromAt m a)

/-- `n` is the smallest key whose entry is nearest (rules R122, R123). -/
def IsDecision (p : Params) (m : Mode) (s : Cx) (n : Nat) : Prop :=
  IsNearest p m s n ∧ ∀ a < n, ¬ IsNearest p m s a

/-- The upsampled buffer u: symbol k at index k*fsT, zero elsewhere (rule R141). -/
def upsampled (s : Nat → Cx) (n fsT i : Nat) : Cx :=
  if i % fsT = 0 ∧ i / fsT < n then s (i / fsT) else Cx.zero

/-- Sample m of the full linear convolution of u[0 .. len-1] with p[0 .. l-1] (rule R141). -/
def convolved (u : Nat → Cx) (len : Nat) (p : Nat → Cx) (l m : Nat) : Cx :=
  sumCx len fun i => if i ≤ m ∧ m - i < l then (u i).mul (p (m - i)) else Cx.zero

/-- Sample m of the direct form: every symbol whose copy of the pulse covers m (rule R142). -/
def directSample (s : Nat → Cx) (n : Nat) (p : Nat → Cx) (l fsT m : Nat) : Cx :=
  sumCx n fun k => if k * fsT ≤ m ∧ m - k * fsT < l then (s k).mul (p (m - k * fsT)) else Cx.zero

/-- The indices t of the products in sample m of the polyphase form (rule R145). -/
def polyphaseTerms (n l fsT m : Nat) : List Nat :=
  (List.range (m / fsT + 1)).filter fun t =>
    decide (m % fsT + t * fsT < l ∧ m / fsT - t < n)

/-- Sample m = q*fsT + r of the polyphase form: only the taps r, r + fsT, r + 2*fsT, ... of the pulse
(rule R145). -/
def polyphaseSample (s : Nat → Cx) (n : Nat) (p : Nat → Cx) (l fsT m : Nat) : Cx :=
  (polyphaseTerms n l fsT m).foldl
    (fun acc t => acc.add ((s (m / fsT - t)).mul (p (m % fsT + t * fsT)))) Cx.zero

end Sys2Proof.Machine
end

