-- ==== Sys2Proof/Machine/ReferencePulse.lean ====
section
/-! DEFINITION. The three reference pulses a host computes, and what it means that PLS holds one
(spec 43_pulse_and_shape.md rules R136 to R139). The block computes none of them and reads no rule of
this file (rules R5, R139): a pulse is described here by a predicate on real numbers. -/

namespace Sys2Proof.Machine

/-- The sine-squared pulse: sample n is sqrt(8 fs / (3 fsT)) sin^2(pi n / fsT) (rule R136). -/
def IsSineSquaredPulse (fsT : Nat) (fs : ℝ) (x : Nat → ℝ) : Prop :=
  ∀ n < fsT, x n = Real.sqrt (8 * fs / (3 * fsT)) * Real.sin (Real.pi * n / fsT) ^ 2

/-- The rectangular pulse: every sample is sqrt(fs / fsT) (rule R137). -/
def IsRectangularPulse (fsT : Nat) (fs : ℝ) (x : Nat → ℝ) : Prop :=
  ∀ n < fsT, x n = Real.sqrt (fs / fsT)

/-- The half-sine pulse: sample n is sqrt(2 fs / fsT) sin(pi n / fsT) (rule R138). -/
def IsHalfSinePulse (fsT : Nat) (fs : ℝ) (x : Nat → ℝ) : Prop :=
  ∀ n < fsT, x n = Real.sqrt (2 * fs / fsT) * Real.sin (Real.pi * n / fsT)

/-- The host's conversion q(x) = sign(x) floor(|x| 2^14 + 1/2) (rule R139). -/
def IsConverted (x : ℝ) (z : Int) : Prop :=
  (z : ℝ) = (SignType.sign x : ℝ) * (⌊|x| * 2 ^ 14 + 1 / 2⌋ : ℝ)

/-- PLS holds the converted pulse and PLEN its length, as the host leaves them (rule R139). -/
def State.HoldsPulse (s : State) (fsT : Nat) (x : Nat → ℝ) : Prop :=
  s.plen.toNat = fsT ∧
    ∀ n < fsT, (s.readPls n).im = 0 ∧ IsConverted (x n) (s.readPls n).re

end Sys2Proof.Machine
end

