-- ==== Sys2Proof/Safety.lean ====
section
/-! DEFINITION. The terms claims are stated in: idle and faulted, the end of a run, and the invariant
of spec 10_state.md rule R36. -/

namespace Sys2Proof.Machine

/-- Idle: the block accepts a command (00_scope.md glossary). -/
abbrev State.Idle (s : State) : Prop := s.err = .none

/-- Faulted: ERR is not 0; no command is accepted until reset (rule R167). -/
abbrev State.Faulted (s : State) : Prop := s.err ≠ .none

/-- A run's successful end: no move left and ERR = 0 (rule R196). -/
abbrev State.SuccessfulEnd (s : State) : Prop := s.script = [] ∧ s.Idle

/-- The state invariant of rule R36, with the canonical form of the memories: no cell is listed
outside its space. BIT cells are 0 or 1 by their type, and the cells nothing has written are in range
by the type of their free value. -/
structure State.Inv (s : State) : Prop where
  modeLegal : s.mode.num.toNat ≤ 6
  errLegal : s.err.num ∈ [0#3, 1#3, 3#3, 4#3]
  bitLength : s.blen.toNat ≤ s.cfg.bcap
  symLength : s.slen.toNat ≤ s.cfg.scap
  plsLength : s.plen.toNat ≤ s.cfg.pcap
  smpLength : s.ylen.toNat ≤ s.cfg.ycap
  faultWord : s.err = .none → s.fcmd = 0
  bitForm : s.bit.wf = true
  symForm : s.sym.wf = true
  plsForm : s.pls.wf = true
  smpForm : s.smp.wf = true
  bitCells : ∀ c ∈ s.bit.cells, c.1 < s.cfg.bcap
  symCells : ∀ c ∈ s.sym.cells, c.1 < s.cfg.scap ∧ c.2.Fits s.cfg.w
  plsCells : ∀ c ∈ s.pls.cells, c.1 < s.cfg.pcap ∧ c.2.Fits s.cfg.w
  smpCells : ∀ c ∈ s.smp.cells, c.1 < s.cfg.ycap ∧ c.2.Fits s.cfg.wy

/-- The words a list of moves issues between commands, in order. -/
def issuedWords : List HostMove → List Word
  | [] => []
  | .issue w :: ms => w :: issuedWords ms
  | .writeBit _ _ :: ms => issuedWords ms
  | .writeSym _ _ :: ms => issuedWords ms
  | .writePls _ _ :: ms => issuedWords ms
  | .readCell _ _ :: ms => issuedWords ms
  | .readReg _ :: ms => issuedWords ms
  | .reset :: ms => issuedWords ms
  | .resetDuring _ :: ms => issuedWords ms

/-- The move asserts reset. -/
def HostMove.isReset : HostMove → Bool
  | .writeBit _ _ => false
  | .writeSym _ _ => false
  | .writePls _ _ => false
  | .readCell _ _ => false
  | .readReg _ => false
  | .issue _ => false
  | .reset => true
  | .resetDuring _ => true

/-- The move writes a cell that exists, with a value of its type: a host write of rule R58. -/
def HostMove.IsLegalWrite (c : Config) : HostMove → Prop
  | .writeBit i _ => i < c.bcap
  | .writeSym i v => i < c.scap ∧ v.Fits c.w
  | .writePls i v => i < c.pcap ∧ v.Fits c.w
  | .readCell _ _ => False
  | .readReg _ => False
  | .issue _ => False
  | .reset => False
  | .resetDuring _ => False

/-- The command is one of the five that only write a register (rules R90 to R94). -/
def isConfigCommand : Instr → Bool
  | .setmode _ => true
  | .setfst _ => true
  | .setblen _ => true
  | .setslen _ => true
  | .setplen _ => true
  | .map => false
  | .demap => false
  | .shape => false

/-- The move writes a data cell. -/
def HostMove.isWrite : HostMove → Bool
  | .writeBit _ _ => true
  | .writeSym _ _ => true
  | .writePls _ _ => true
  | .readCell _ _ => false
  | .readReg _ => false
  | .issue _ => false
  | .reset => false
  | .resetDuring _ => false

/-- The operand a command's word carries, an unsigned number; none is 0 (rule R72). -/
def operandOf : Instr → Nat
  | .setmode m => m.toNat
  | .setfst n => n.toNat
  | .setblen n => n.toNat
  | .setslen n => n.toNat
  | .setplen n => n.toNat
  | .map => 0
  | .demap => 0
  | .shape => 0

/-- The illegal words, as rule R75 lists them, by the value of word[31:24] and word[23:0]. -/
abbrev IsIllegalWord (w : Word) : Prop :=
  w.toNat / 2 ^ 24 ∉ [0x01, 0x02, 0x03, 0x04, 0x05, 0x10, 0x11, 0x12] ∨
  (w.toNat / 2 ^ 24 ∈ [0x10, 0x11, 0x12] ∧ w.toNat % 2 ^ 24 ≠ 0) ∨
  (w.toNat / 2 ^ 24 = 0x01 ∧ w.toNat % 2 ^ 24 / 2 ^ 3 ≠ 0) ∨
  (w.toNat / 2 ^ 24 = 0x01 ∧ w.toNat % 2 ^ 3 = 7) ∨
  (w.toNat / 2 ^ 24 = 0x02 ∧ w.toNat % 2 ^ 24 / 2 ^ 16 ≠ 0)

end Sys2Proof.Machine
end

