-- ==== Sys2Proof/Certificates/Slice0/Obligations.lean ====
section
/-! DEFINITION. The statements for the provers, each with the rule of spec/ it formalises. -/

open Sys2Proof Sys2Proof.Machine

/-! ### Encoding (30_encoding.md) -/

/-- The encoding examples of 30_encoding.md section 6 (rules R72, R73). -/
def Obligations.EncodingExamplesDecode : Prop :=
  decode 0x01000002#32 = .ok (.setmode 2) ∧ decode 0x01000006#32 = .ok (.setmode 6) ∧
  decode 0x02000004#32 = .ok (.setfst 4) ∧ decode 0x0200FFFF#32 = .ok (.setfst 65535) ∧
  decode 0x0300000C#32 = .ok (.setblen 12) ∧ decode 0x04001000#32 = .ok (.setslen 4096) ∧
  decode 0x05000100#32 = .ok (.setplen 256) ∧ decode 0x10000000#32 = .ok .map ∧
  decode 0x11000000#32 = .ok .demap ∧ decode 0x12000000#32 = .ok .shape

/-- Decoding the word of a command gives the command back, every operand at every value (rules R71,
R72, R73). -/
def Obligations.DecodeInvertsEncode : Prop :=
  ∀ i : Instr, i.wf = true → decode (encode i) = .ok i

/-- A word that decodes is the one word of its command (rules R73, R74). -/
def Obligations.EncodeInvertsDecode : Prop :=
  ∀ (w : Word) (i : Instr), decode w = .ok i → encode i = w ∧ i.wf = true

/-- Rule R74: a word that is a command matches its row of rule R73 and no other and carries the
operand of rule R72, and every other word is refused; the one word that fits a row and is no command
is SETMODE 7. -/
def Obligations.EveryWordMatchesOneRowOrIsIllegal : Prop :=
  (∀ (w : Word) (i : Instr), decode w = .ok i →
    i.row.fits w = true ∧ operandOf i = w.toNat % 2 ^ 24) ∧
  (∀ (w : Word) (i j : Instr), i.row.fits w = true → j.row.fits w = true → i.row = j.row) ∧
  (∀ w : Word, (∃ i, decode w = .ok i) ↔
    (∃ j : Instr, j.row.fits w = true) ∧ w ≠ 0x01000007#32)

/-- Rules R75 and R163: the words refused are exactly the five cases, and issuing one raises
IllegalCommand with no other effect. -/
def Obligations.IllegalWordsFaultIllegalCommand : Prop :=
  (∀ w : Word, (∃ e, decode w = .error e) ↔ IsIllegalWord w) ∧
  (∀ (s : State) (w : Word) (rest : List HostMove),
    s.script = .issue w :: rest → s.Idle → IsIllegalWord w →
    step s = .next { s with script := rest, err := .illegalCommand, fcmd := w })

/-- Rule R78: the seven mode names are SETMODE's operands 0 to 6. -/
def Obligations.ModeNamesAreSetmodeOperands : Prop :=
  assembleLine "SETMODE BPSK".toList = .command (.setmode 0) ∧
  assembleLine "SETMODE QPSK".toList = .command (.setmode 1) ∧
  assembleLine "SETMODE QAM16".toList = .command (.setmode 2) ∧
  assembleLine "SETMODE QAM64".toList = .command (.setmode 3) ∧
  assembleLine "SETMODE PAM4".toList = .command (.setmode 4) ∧
  assembleLine "SETMODE PAM8".toList = .command (.setmode 5) ∧
  assembleLine "SETMODE PSK8".toList = .command (.setmode 6)

/-! ### One step (00_scope.md, 60_exceptions.md) -/

/-- The issue of a word that decodes to a command, to an idle block, runs that command on the state
without the move (rules R14, R74, R195). -/
def Obligations.StepRunsTheDecodedCommand : Prop :=
  ∀ (s : State) (w : Word) (rest : List HostMove) (i : Instr),
    s.script = .issue w :: rest → s.Idle → decode w = .ok i →
    step s = exec i { s with script := rest }

/-- A table word placed as the next move runs on the state it was placed in (log 4). -/
def Obligations.PlacedWordRunsNext : Prop :=
  ∀ (s : State) (w : Nat) (i : Instr), s.Idle → decodeTableWord 32 w = some i →
    step (s.withFetchWord 32 w) = exec i s

/-- Rules R167, R168, R169: a faulted block takes no word, no move but reset changes ERR, FCMD or CP,
and reads, legal writes and reset still complete. Two clauses are the model's own: rule R167 gives the
block no step and the host no issue move while faulted, and the model makes the attempt a move that
answers next and is used up (log 7, DEDUCED); and resetDuring, a move this model adds, is a plain reset
on a faulted block (log 6, DESIGN CHOICE). -/
def Obligations.FaultedBlockTakesNoCommand : Prop :=
  (∀ (s : State) (w : Word) (rest : List HostMove), s.script = .issue w :: rest → s.Faulted →
    step s = .next { s with script := rest }) ∧
  (∀ (s t : State) (mv : HostMove) (rest : List HostMove), s.script = mv :: rest → s.Faulted →
    mv.isReset = false → step s = .next t → t.err = s.err ∧ t.fcmd = s.fcmd ∧ t.cp = s.cp) ∧
  (∀ (s : State) (mv : HostMove) (rest : List HostMove), s.script = mv :: rest → s.Faulted →
    (mv.IsLegalWrite s.cfg ∨ (∃ r, mv = .readReg r) ∨
      (∃ sp i, mv = .readCell sp i ∧ i < sp.cells s.cfg) ∨ mv.isReset = true) →
    ∃ t, step s = .next t ∧ (mv.isReset = true → t.Idle))

/-- Rules R160 and R165: whatever command faults, ERR takes the cause, FCMD the word issued, and
nothing else of the machine changes. -/
def Obligations.FaultsArePrecise : Prop :=
  ∀ (s t : State) (w : Word) (rest : List HostMove),
    s.script = .issue w :: rest → s.Idle → step s = .next t → t.Faulted →
    t = { s with script := rest, err := t.err, fcmd := w }

/-- Rule R29: a command that completes adds one to CP modulo 2^32; one that faults leaves it. -/
def Obligations.CpCountsCompletedCommands : Prop :=
  ∀ (i : Instr) (s : State), s.Idle → ∃ t, exec i s = .next t ∧
    (t.Idle → t.cp.toNat = (s.cp.toNat + 1) % 2 ^ 32) ∧ (t.Faulted → t.cp = s.cp)

/-- Rule R181: which command can raise which fault. -/
def Obligations.FaultMatrix : Prop :=
  ∀ (i : Instr) (s t : State), s.Idle → exec i s = .next t →
    (t.err = .illegalCommand → i = .setmode 7) ∧
    (t.err = .invalidInput → i = .map ∨ i = .shape) ∧
    (t.err = .capacity → (∃ n, i = .setblen n) ∨ (∃ n, i = .setslen n) ∨ (∃ n, i = .setplen n) ∨
      i = .map ∨ i = .demap ∨ i = .shape)

/-- Rules R21, R50, R63: a register or a space changes only by the commands the tables name for it;
PLS, CROM and the host's side by none. -/
def Obligations.OnlyTheNamedCommandsWrite : Prop :=
  ∀ (i : Instr) (s t : State), exec i s = .next t →
    t.cfg = s.cfg ∧ t.script = s.script ∧ t.transcript = s.transcript ∧
    ((∀ m, i ≠ .setmode m) → t.mode = s.mode) ∧
    ((∀ n, i ≠ .setfst n) → t.fst = s.fst) ∧
    ((∀ n, i ≠ .setblen n) → i ≠ .demap → t.blen = s.blen) ∧
    ((∀ n, i ≠ .setslen n) → i ≠ .map → t.slen = s.slen) ∧
    ((∀ n, i ≠ .setplen n) → t.plen = s.plen) ∧
    (i ≠ .shape → t.ylen = s.ylen) ∧
    (i ≠ .demap → ∀ a, t.readBit a = s.readBit a) ∧
    (i ≠ .map → ∀ a, t.readSym a = s.readSym a) ∧
    (∀ a, t.readPls a = s.readPls a) ∧
    (i ≠ .shape → ∀ a, t.readSmp a = s.readSmp a)

/-! ### Configuration commands (40_config_commands.md) -/

/-- Rule R90: SETMODE m selects mode m and counts one command, for each of the seven modes; m = 7 and
non-zero reserved bits fault IllegalCommand. -/
def Obligations.SetmodeSelectsTheConstellation : Prop :=
  (∀ (md : Mode) (s : State),
    exec (.setmode md.num) s = .next { s with mode := md, cp := s.cp + 1 }) ∧
  (∀ s : State,
    exec (.setmode 7) s = .next { s with err := .illegalCommand, fcmd := 0x01000007#32 }) ∧
  (∀ (s : State) (w : Word) (rest : List HostMove), s.script = .issue w :: rest → s.Idle →
    w.toNat / 2 ^ 24 = 0x01 → w.toNat % 2 ^ 24 / 2 ^ 3 ≠ 0 ∨ w.toNat % 2 ^ 3 = 7 →
    step s = .next { s with script := rest, err := .illegalCommand, fcmd := w })

/-- Rule R91: SETFST n writes FST, 0 included; non-zero reserved bits fault IllegalCommand. -/
def Obligations.SetfstSetsTheSymbolPeriod : Prop :=
  (∀ (n : BitVec 16) (s : State), exec (.setfst n) s = .next { s with fst := n, cp := s.cp + 1 }) ∧
  (∀ (s : State) (w : Word) (rest : List HostMove), s.script = .issue w :: rest → s.Idle →
    w.toNat / 2 ^ 24 = 0x02 → w.toNat % 2 ^ 24 / 2 ^ 16 ≠ 0 →
    step s = .next { s with script := rest, err := .illegalCommand, fcmd := w })

/-- Rule R92: SETBLEN n writes BLEN when n is at most BCAP and faults Capacity otherwise. -/
def Obligations.SetblenDeclaresTheBitLength : Prop :=
  ∀ (n : BitVec 24) (s : State),
    (n.toNat ≤ s.cfg.bcap → exec (.setblen n) s = .next { s with blen := n, cp := s.cp + 1 }) ∧
    (s.cfg.bcap < n.toNat →
      exec (.setblen n) s = .next { s with err := .capacity, fcmd := 0x03#8 ++ n })

/-- Rule R93: SETSLEN n writes SLEN when n is at most SCAP and faults Capacity otherwise. -/
def Obligations.SetslenDeclaresTheSymbolLength : Prop :=
  ∀ (n : BitVec 24) (s : State),
    (n.toNat ≤ s.cfg.scap → exec (.setslen n) s = .next { s with slen := n, cp := s.cp + 1 }) ∧
    (s.cfg.scap < n.toNat →
      exec (.setslen n) s = .next { s with err := .capacity, fcmd := 0x04#8 ++ n })

/-- Rule R94: SETPLEN n writes PLEN when n is at most PCAP and faults Capacity otherwise. -/
def Obligations.SetplenDeclaresThePulseLength : Prop :=
  ∀ (n : BitVec 24) (s : State),
    (n.toNat ≤ s.cfg.pcap → exec (.setplen n) s = .next { s with plen := n, cp := s.cp + 1 }) ∧
    (s.cfg.pcap < n.toNat →
      exec (.setplen n) s = .next { s with err := .capacity, fcmd := 0x05#8 ++ n })

/-- Rule R95: two configuration commands of different mnemonics that complete in one order complete
in the other and leave the same state; of two with the same mnemonic the later wins; none depends on
the data memories. -/
def Obligations.ConfigCommandsCommute : Prop :=
  (∀ (i j : Instr) (s a b : State), isConfigCommand i = true → isConfigCommand j = true →
    i.row ≠ j.row → s.Idle → exec i s = .next a → a.Idle → exec j a = .next b → b.Idle →
    ∃ c, exec j s = .next c ∧ c.Idle ∧ exec i c = .next b) ∧
  (∀ (i j : Instr) (s a b : State), isConfigCommand i = true → i.row = j.row → s.Idle →
    exec i s = .next a → a.Idle → exec j a = .next b → b.Idle →
    ∃ c, exec j s = .next c ∧ b = { c with cp := c.cp + 1 }) ∧
  (∀ (i : Instr) (s t : State) (mb : Memory (BitVec 1)) (ms mp my : Memory Cx),
    isConfigCommand i = true → exec i s = .next t →
    exec i { s with bit := mb, sym := ms, pls := mp, smp := my } =
      .next { t with bit := mb, sym := ms, pls := mp, smp := my })

/-! ### MAP (41_constellation_and_map.md) -/

/-- Rule R110: MAP writes, for each group of K bits read most significant first, the table entry of
its key, sets SLEN and leaves everything else; its faults change nothing but ERR and FCMD. -/
def Obligations.MapWritesTheSymbolOfEachGroup : Prop :=
  ∀ s : State,
    (s.blen.toNat % s.mode.k = 0 → s.blen.toNat / s.mode.k ≤ s.cfg.scap →
      ∃ m : Memory Cx,
        let n := s.blen.toNat / s.mode.k
        let t : State := { s with sym := m, slen := BitVec.ofNat 24 n, cp := s.cp + 1 }
        exec .map s = .next t ∧ t.slen.toNat = n ∧
        (∀ g < n, t.readSym g = s.cfg.cromAt s.mode (groupKey s.readBit g s.mode.k)) ∧
        (∀ a, n ≤ a → t.readSym a = s.readSym a)) ∧
    (s.blen.toNat % s.mode.k ≠ 0 →
      exec .map s = .next { s with err := .invalidInput, fcmd := 0x10000000#32 }) ∧
    (s.blen.toNat % s.mode.k = 0 → s.cfg.scap < s.blen.toNat / s.mode.k →
      exec .map s = .next { s with err := .capacity, fcmd := 0x10000000#32 }) ∧
    (∀ (w : Word) (rest : List HostMove), s.script = .issue w :: rest → s.Idle →
      w.toNat / 2 ^ 24 = 0x10 → w.toNat % 2 ^ 24 ≠ 0 →
      step s = .next { s with script := rest, err := .illegalCommand, fcmd := w })

/-- Rule R112 (b), (c): the symbol of a group depends on that group's bits only. -/
def Obligations.MapSymbolDependsOnItsGroup : Prop :=
  ∀ (s s' t t' : State) (g : Nat), s'.cfg = s.cfg → s'.mode = s.mode → s'.blen = s.blen →
    s.Idle → s'.Idle → exec .map s = .next t → t.Idle → exec .map s' = .next t' →
    g < t.slen.toNat →
    (∀ i < s.mode.k, s'.readBit (g * s.mode.k + i) = s.readBit (g * s.mode.k + i)) →
    t'.Idle ∧ t'.slen = t.slen ∧ t'.readSym g = t.readSym g

/-- Rule R112 (e): mapping a concatenation gives the concatenation of the mappings. -/
def Obligations.MapOfConcatenation : Prop :=
  ∀ (s a b t u v : State),
    a.cfg = s.cfg → b.cfg = s.cfg → a.mode = s.mode → b.mode = s.mode →
    a.blen.toNat % s.mode.k = 0 → s.blen.toNat = a.blen.toNat + b.blen.toNat →
    (∀ i < a.blen.toNat, s.readBit i = a.readBit i) →
    (∀ i < b.blen.toNat, s.readBit (a.blen.toNat + i) = b.readBit i) →
    s.Idle → a.Idle → b.Idle → exec .map s = .next t → t.Idle →
    exec .map a = .next u → exec .map b = .next v →
    u.Idle ∧ v.Idle ∧ t.slen.toNat = u.slen.toNat + v.slen.toNat ∧
    (∀ g < u.slen.toNat, t.readSym g = u.readSym g) ∧
    (∀ g < v.slen.toNat, t.readSym (u.slen.toNat + g) = v.readSym g)

/-- Corner cases of rules R110 and R121: the empty sequence maps and demaps to the empty sequence,
writing no cell. -/
def Obligations.EmptySequencesComplete : Prop :=
  ∀ s : State,
    (s.blen = 0 → exec .map s = .next { s with slen := 0, cp := s.cp + 1 }) ∧
    (s.slen = 0 → exec .demap s = .next { s with blen := 0, cp := s.cp + 1 })

/-- Corner cases of rules R110 and R140: running MAP or SHAPE twice gives the same memory and length
both times. -/
def Obligations.MapAndShapeRepeat : Prop :=
  ∀ (i : Instr) (s t : State), i = .map ∨ i = .shape → s.Idle → exec i s = .next t → t.Idle →
    exec i t = .next { t with cp := t.cp + 1 }

/-! ### DEMAP (42_demap.md) -/

/-- Rules R122 and R123: the scan finds the smallest key among those of the nearest table entries,
and nothing else is that key. -/
def Obligations.NearestKeyIsTheLowestNearest : Prop :=
  ∀ (p : Params) (m : Mode) (s : Cx) (n : Nat), IsDecision p m s n ↔ n = nearestKey p m s

/-- Rule R125: differences, squares and distances of W-bit values stay within the widths given. -/
def Obligations.DistancesStayInWidth : Prop :=
  ∀ (c : Config) (a b : Cx), a.Fits c.w → b.Fits c.w →
    let top : Int := ((2 ^ c.w : Nat) : Int) - 1
    (-top ≤ a.re - b.re ∧ a.re - b.re ≤ top) ∧ (-top ≤ a.im - b.im ∧ a.im - b.im ≤ top) ∧
    (0 ≤ (a.re - b.re) * (a.re - b.re) ∧ (a.re - b.re) * (a.re - b.re) ≤ top * top) ∧
    (0 ≤ (a.im - b.im) * (a.im - b.im) ∧ (a.im - b.im) * (a.im - b.im) ≤ top * top) ∧
    0 ≤ dist2 a b ∧ dist2 a b ≤ 2 * (top * top) ∧
    dist2 a b < ((2 ^ (2 * c.w + 1) : Nat) : Int)

/-- Rule R121: DEMAP writes, for each symbol, the K bits of its decision most significant first, sets
BLEN and leaves everything else; its faults change nothing but ERR and FCMD. -/
def Obligations.DemapWritesTheBitsOfEachDecision : Prop :=
  ∀ s : State,
    (s.slen.toNat * s.mode.k ≤ s.cfg.bcap →
      ∃ b : Memory (BitVec 1),
        let m := s.slen.toNat * s.mode.k
        let t : State := { s with bit := b, blen := BitVec.ofNat 24 m, cp := s.cp + 1 }
        exec .demap s = .next t ∧ t.blen.toNat = m ∧
        (∀ j < s.slen.toNat, ∃ key, IsDecision s.cfg.toParams s.mode (s.readSym j) key ∧
          ∀ i < s.mode.k, (t.readBit (j * s.mode.k + i)).toNat = key / 2 ^ (s.mode.k - 1 - i) % 2) ∧
        (∀ a, m ≤ a → t.readBit a = s.readBit a)) ∧
    (s.cfg.bcap < s.slen.toNat * s.mode.k →
      exec .demap s = .next { s with err := .capacity, fcmd := 0x11000000#32 }) ∧
    (∀ (w : Word) (rest : List HostMove), s.script = .issue w :: rest → s.Idle →
      w.toNat / 2 ^ 24 = 0x11 → w.toNat % 2 ^ 24 ≠ 0 →
      step s = .next { s with script := rest, err := .illegalCommand, fcmd := w })

/-- Corner case of rule R121: in a real-valued table the imaginary part of the received symbol does
not affect the decision. -/
def Obligations.RealTablesIgnoreTheImaginaryPart : Prop :=
  ∀ (p : Params) (m : Mode) (x y y' : Int), (∀ n < m.size, (p.cromAt m n).im = 0) →
    nearestKey p m ⟨x, y⟩ = nearestKey p m ⟨x, y'⟩

/-- Rule R127 (c): a table entry is decided as its own key. -/
def Obligations.TableEntryDecidesItsOwnKey : Prop :=
  ∀ (c : Config) (m : Mode) (n : Nat), n < m.size →
    nearestKey c.toParams m (c.cromAt m n) = n

/-- Rule R126: after a MAP that completes, a DEMAP of undisturbed symbols in the same mode completes
and gives back the bits and their number, for all seven modes. -/
def Obligations.DemapInvertsMap : Prop :=
  ∀ (s t t' : State), s.blen.toNat ≤ s.cfg.bcap → s.Idle → exec .map s = .next t → t.Idle →
    t'.cfg = t.cfg → t'.mode = t.mode → t'.slen = t.slen → t'.Idle →
    (∀ g < t.slen.toNat, t'.readSym g = t.readSym g) →
    ∃ u, exec .demap t' = .next u ∧ u.Idle ∧ u.blen = s.blen ∧
      ∀ i < s.blen.toNat, u.readBit i = s.readBit i

/-- Rule R127 (d): MAP after DEMAP writes the decided table entries, and a further DEMAP gives the
same bits. -/
def Obligations.DemapMapDemapGivesTheSameBits : Prop :=
  ∀ (s t : State), s.slen.toNat ≤ s.cfg.scap → s.Idle → exec .demap s = .next t → t.Idle →
    ∃ u v, exec .map t = .next u ∧ u.Idle ∧ u.slen = s.slen ∧
      (∀ j < s.slen.toNat, ∃ key, IsDecision s.cfg.toParams s.mode (s.readSym j) key ∧
        u.readSym j = s.cfg.cromAt s.mode key) ∧
      exec .demap u = .next v ∧ v.Idle ∧ v.blen = t.blen ∧
      ∀ i < t.blen.toNat, v.readBit i = t.readBit i

/-- Rule R127 (b): the bits of a symbol depend on that symbol only. -/
def Obligations.DemapBitsDependOnTheirSymbol : Prop :=
  ∀ (s s' t t' : State) (j i : Nat), s'.cfg = s.cfg → s'.mode = s.mode → s'.slen = s.slen →
    s.Idle → s'.Idle → exec .demap s = .next t → t.Idle → exec .demap s' = .next t' →
    j < s.slen.toNat → i < s.mode.k → s'.readSym j = s.readSym j →
    t'.Idle ∧ t'.blen = t.blen ∧ t'.readBit (j * s.mode.k + i) = t.readBit (j * s.mode.k + i)

/-! ### SHAPE (43_pulse_and_shape.md) -/

/-- Rule R140 (with the sample of rule R142): SHAPE writes the Y samples of the direct form, sets YLEN
and leaves everything else; its faults change nothing but ERR and FCMD. -/
def Obligations.ShapeWritesTheDirectForm : Prop :=
  ∀ s : State,
    let y := (s.slen.toNat - 1) * s.fst.toNat + s.plen.toNat
    (s.fst ≠ 0 → s.slen ≠ 0 → s.plen ≠ 0 → y ≤ s.cfg.ycap →
      ∃ m : Memory Cx,
        let t : State := { s with smp := m, ylen := BitVec.ofNat 24 y, cp := s.cp + 1 }
        exec .shape s = .next t ∧ t.ylen.toNat = y ∧
        (∀ a < y, t.readSmp a =
          directSample s.readSym s.slen.toNat s.readPls s.plen.toNat s.fst.toNat a) ∧
        (∀ a, y ≤ a → t.readSmp a = s.readSmp a)) ∧
    (s.fst = 0 ∨ s.slen = 0 ∨ s.plen = 0 →
      exec .shape s = .next { s with err := .invalidInput, fcmd := 0x12000000#32 }) ∧
    (s.fst ≠ 0 → s.slen ≠ 0 → s.plen ≠ 0 → s.cfg.ycap < y →
      exec .shape s = .next { s with err := .capacity, fcmd := 0x12000000#32 }) ∧
    (∀ (w : Word) (rest : List HostMove), s.script = .issue w :: rest → s.Idle →
      w.toNat / 2 ^ 24 = 0x12 → w.toNat % 2 ^ 24 ≠ 0 →
      step s = .next { s with script := rest, err := .illegalCommand, fcmd := w })

/-- Rule R141: what SHAPE leaves in SMP is the full linear convolution of the zero-inserted symbols
with the pulse. -/
def Obligations.ShapeIsUpsampleThenConvolve : Prop :=
  ∀ (s t : State), s.Idle → exec .shape s = .next t → t.Idle →
    ∀ m < t.ylen.toNat, t.readSmp m =
      convolved (upsampled s.readSym s.slen.toNat s.fst.toNat)
        ((s.slen.toNat - 1) * s.fst.toNat + 1) s.readPls s.plen.toNat m

/-- Rule R145: what SHAPE leaves in SMP is the polyphase form, and no sample takes more than
ceil(PLEN / FST) products. -/
def Obligations.ShapeIsThePolyphaseFilter : Prop :=
  ∀ (s t : State), s.Idle → exec .shape s = .next t → t.Idle →
    ∀ m < t.ylen.toNat,
      t.readSmp m =
        polyphaseSample s.readSym s.slen.toNat s.readPls s.plen.toNat s.fst.toNat m ∧
      (polyphaseTerms s.slen.toNat s.plen.toNat s.fst.toNat m).length ≤
        (s.plen.toNat + s.fst.toNat - 1) / s.fst.toNat

/-- Rule R143: with W-bit operands every component of every output sample has magnitude at most
PCAP * 2^(2W-1), which is at most 2^(WY-2). -/
def Obligations.SamplesStayInWidth : Prop :=
  ∀ (s : State) (m : Nat), s.fst ≠ 0 → s.plen.toNat ≤ s.cfg.pcap →
    (∀ k < s.slen.toNat, (s.readSym k).Fits s.cfg.w) →
    (∀ j < s.plen.toNat, (s.readPls j).Fits s.cfg.w) →
    let bound : Int := ((s.cfg.pcap * 2 ^ (2 * s.cfg.w - 1) : Nat) : Int)
    let y := directSample s.readSym s.slen.toNat s.readPls s.plen.toNat s.fst.toNat m
    (-bound ≤ y.re ∧ y.re ≤ bound) ∧ (-bound ≤ y.im ∧ y.im ≤ bound) ∧
    bound ≤ ((2 ^ (s.cfg.wy - 2) : Nat) : Int)

/-- Corner cases of rule R140: with PLEN at most FST the copies of the pulse do not overlap, each
sample is one product, and the gaps are (0, 0). -/
def Obligations.ShortPulsesDoNotOverlap : Prop :=
  ∀ (s t : State), s.Idle → exec .shape s = .next t → t.Idle → s.plen.toNat ≤ s.fst.toNat →
    (∀ k < s.slen.toNat, ∀ j < s.plen.toNat,
      t.readSmp (k * s.fst.toNat + j) = (s.readSym k).mul (s.readPls j)) ∧
    (∀ k, k + 1 < s.slen.toNat → ∀ j, s.plen.toNat ≤ j → j < s.fst.toNat →
      t.readSmp (k * s.fst.toNat + j) = ⟨0, 0⟩)

/-- Rule R144 (b): shaping is linear in the symbols and in the pulse. -/
def Obligations.ShapeIsLinear : Prop :=
  ∀ (s a b t u v : State), a.fst = s.fst → b.fst = s.fst → a.slen = s.slen → b.slen = s.slen →
    a.plen = s.plen → b.plen = s.plen → s.Idle → a.Idle → b.Idle →
    exec .shape s = .next t → t.Idle → exec .shape a = .next u → u.Idle →
    exec .shape b = .next v → v.Idle →
    ((∀ k < s.slen.toNat, s.readSym k = (a.readSym k).add (b.readSym k)) ∧
      (∀ j < s.plen.toNat, a.readPls j = s.readPls j ∧ b.readPls j = s.readPls j)) ∨
    ((∀ j < s.plen.toNat, s.readPls j = (a.readPls j).add (b.readPls j)) ∧
      (∀ k < s.slen.toNat, a.readSym k = s.readSym k ∧ b.readSym k = s.readSym k)) →
    ∀ m < t.ylen.toNat, t.readSmp m = (u.readSmp m).add (v.readSmp m)

/-- Rule R144 (c): prefixing one symbol (0, 0) delays the result by FST samples, the first FST of
them (0, 0). -/
def Obligations.ShapeOfPrefixedZeroIsDelayed : Prop :=
  ∀ (s a t u : State), a.fst = s.fst → a.plen = s.plen → a.slen.toNat = s.slen.toNat + 1 →
    a.readSym 0 = ⟨0, 0⟩ → (∀ k < s.slen.toNat, a.readSym (k + 1) = s.readSym k) →
    (∀ j < s.plen.toNat, a.readPls j = s.readPls j) → s.Idle → a.Idle →
    exec .shape s = .next t → t.Idle → exec .shape a = .next u → u.Idle →
    u.ylen.toNat = t.ylen.toNat + s.fst.toNat ∧
    (∀ m < s.fst.toNat, u.readSmp m = ⟨0, 0⟩) ∧
    (∀ m < t.ylen.toNat, u.readSmp (m + s.fst.toNat) = t.readSmp m)

/-- Rule R144 (d): real symbols and a real pulse give real samples. -/
def Obligations.RealInputsGiveRealSamples : Prop :=
  ∀ (s t : State), s.Idle → exec .shape s = .next t → t.Idle →
    (∀ k < s.slen.toNat, (s.readSym k).im = 0) → (∀ j < s.plen.toNat, (s.readPls j).im = 0) →
    ∀ m < t.ylen.toNat, (t.readSmp m).im = 0

/-- Rule R147: the energy of the real-valued reference pulses for fs = 1, with the cases in which it
is not 1 (90_conflicts.md C4). -/
def Obligations.ReferencePulseEnergies : Prop :=
  (∀ (fsT : Nat) (x : Nat → ℝ), 1 ≤ fsT → IsRectangularPulse fsT 1 x →
    ∑ n ∈ Finset.range fsT, x n ^ 2 = 1) ∧
  (∀ (fsT : Nat) (x : Nat → ℝ), 1 ≤ fsT → IsHalfSinePulse fsT 1 x →
    ∑ n ∈ Finset.range fsT, x n ^ 2 = if fsT = 1 then 0 else 1) ∧
  (∀ (fsT : Nat) (x : Nat → ℝ), 1 ≤ fsT → IsSineSquaredPulse fsT 1 x →
    ∑ n ∈ Finset.range fsT, x n ^ 2 = if fsT = 1 then 0 else if fsT = 2 then 4 / 3 else 1)

/-! ### Memories and the host (20_memory.md, 70_reset_and_hazards.md) -/

/-- Rules R64, R69 and R191: the order in which the cells of a result are written one by one does not
matter, whatever the cells hold, and any order gives the memory MAP leaves in SYM, DEMAP in BIT and
SHAPE in SMP (log 15). -/
def Obligations.CellWriteOrderIsUnobservable : Prop :=
  (∀ (α : Type) (d : α) (m : Memory α) (vs : List α) (order : List Nat), m.wf = true →
    order.Perm (List.range vs.length) →
    order.foldl (fun acc i => acc.write i (vs.getD i d)) m = m.writeSeq vs) ∧
  (∀ (s t : State) (order : List Nat), s.Idle → exec .map s = .next t → t.Idle →
    s.sym.wf = true → order.Perm (List.range t.slen.toNat) →
    t.sym = order.foldl (fun acc i => acc.write i (t.readSym i)) s.sym) ∧
  (∀ (s t : State) (order : List Nat), s.Idle → exec .demap s = .next t → t.Idle →
    s.bit.wf = true → order.Perm (List.range t.blen.toNat) →
    t.bit = order.foldl (fun acc i => acc.write i (t.readBit i)) s.bit) ∧
  (∀ (s t : State) (order : List Nat), s.Idle → exec .shape s = .next t → t.Idle →
    s.smp.wf = true → order.Perm (List.range t.ylen.toNat) →
    t.smp = order.foldl (fun acc i => acc.write i (t.readSmp i)) s.smp)

/-- Rule R58: a host write of a cell that exists, with a value of its type, changes that cell and
nothing else, idle or faulted; a write that is no such write is no move. -/
def Obligations.HostWriteChangesOnlyItsCell : Prop :=
  (∀ (s : State) (i : Nat) (v : BitVec 1) (rest : List HostMove),
    s.script = .writeBit i v :: rest → i < s.cfg.bcap →
    ∃ m : Memory (BitVec 1),
      let t : State := { s with bit := m, script := rest }
      step s = .next t ∧ t.readBit i = v ∧ ∀ a, a ≠ i → t.readBit a = s.readBit a) ∧
  (∀ (s : State) (i : Nat) (v : Cx) (rest : List HostMove),
    s.script = .writeSym i v :: rest → i < s.cfg.scap → v.Fits s.cfg.w →
    ∃ m : Memory Cx,
      let t : State := { s with sym := m, script := rest }
      step s = .next t ∧ t.readSym i = v ∧ ∀ a, a ≠ i → t.readSym a = s.readSym a) ∧
  (∀ (s : State) (i : Nat) (v : Cx) (rest : List HostMove),
    s.script = .writePls i v :: rest → i < s.cfg.pcap → v.Fits s.cfg.w →
    ∃ m : Memory Cx,
      let t : State := { s with pls := m, script := rest }
      step s = .next t ∧ t.readPls i = v ∧ ∀ a, a ≠ i → t.readPls a = s.readPls a) ∧
  (∀ (s t : State) (mv : HostMove) (rest : List HostMove), s.script = mv :: rest →
    mv.isWrite = true → ¬ mv.IsLegalWrite s.cfg → step s ≠ .next t)

/-- Rules R52 and R58: a host access outside its space, or a write of a value outside its cell's
domain, is no move: it stops by name (log 8). -/
def Obligations.AccessesThatDoNotExistStop : Prop :=
  (∀ (s : State) (i : Nat) (v : BitVec 1) (rest : List HostMove),
    s.script = .writeBit i v :: rest → s.cfg.bcap ≤ i → step s = .fault (.noSuchCell .bit i)) ∧
  (∀ (s : State) (i : Nat) (v : Cx) (rest : List HostMove), s.script = .writeSym i v :: rest →
    (s.cfg.scap ≤ i → step s = .fault (.noSuchCell .sym i)) ∧
    (i < s.cfg.scap → ¬ v.Fits s.cfg.w → step s = .refused (.valueOutsideCell .sym i v))) ∧
  (∀ (s : State) (i : Nat) (v : Cx) (rest : List HostMove), s.script = .writePls i v :: rest →
    (s.cfg.pcap ≤ i → step s = .fault (.noSuchCell .pls i)) ∧
    (i < s.cfg.pcap → ¬ v.Fits s.cfg.w → step s = .refused (.valueOutsideCell .pls i v))) ∧
  (∀ (s : State) (sp : Space) (i : Nat) (rest : List HostMove),
    s.script = .readCell sp i :: rest → sp.cells s.cfg ≤ i → step s = .fault (.noSuchCell sp i))

/-- Rule R59: a host read gives the host the cell's or register's current value and changes nothing
else. A register's value is its field, unsigned (rule R21); MODE reads as the number of its mode
(rule R22), ERR as the code of its fault (rule R161). -/
def Obligations.HostReadChangesNothing : Prop :=
  (∀ (s : State) (r : Reg),
    s.readReg r = match r with
      | .mode => (match s.mode with
        | .bpsk => 0 | .qpsk => 1 | .qam16 => 2 | .qam64 => 3 | .pam4 => 4 | .pam8 => 5 | .psk8 => 6)
      | .fst => s.fst.toNat
      | .blen => s.blen.toNat
      | .slen => s.slen.toNat
      | .plen => s.plen.toNat
      | .ylen => s.ylen.toNat
      | .err => (match s.err with
        | .none => 0 | .invalidInput => 1 | .illegalCommand => 3 | .capacity => 4)
      | .fcmd => s.fcmd.toNat
      | .cp => s.cp.toNat) ∧
  (∀ (s : State) (r : Reg) (rest : List HostMove), s.script = .readReg r :: rest →
    step s = .next { s with script := rest, transcript := s.transcript ++ [.reg (s.readReg r)] }) ∧
  (∀ (s : State) (sp : Space) (i : Nat) (rest : List HostMove),
    s.script = .readCell sp i :: rest → i < sp.cells s.cfg →
    step s = .next { s with script := rest, transcript := s.transcript ++ [match sp with
      | .crom => .pair (s.cfg.cromCell i)
      | .bit => .bit (s.readBit i)
      | .sym => .pair (s.readSym i)
      | .pls => .pair (s.readPls i)
      | .smp => .pair (s.readSmp i)] })

/-- Rule R51: in a state that meets the invariant every cell, written or not, holds a value of its
space's domain. -/
def Obligations.CellsHoldValuesOfTheirDomain : Prop :=
  ∀ (s : State) (i : Nat), s.Inv →
    (s.readSym i).Fits s.cfg.w ∧ (s.readPls i).Fits s.cfg.w ∧ (s.readSmp i).Fits s.cfg.wy ∧
    (s.readBit i = 0 ∨ s.readBit i = 1) ∧ (i < cromCells → (s.cfg.cromCell i).Fits s.cfg.w)

/-- Rule R37: the registers at reset are 0, the mode BPSK, the block idle. -/
def Obligations.RegistersAtReset : Prop :=
  (∀ r : Reg, State.reset.readReg r = 0) ∧ State.reset.mode = .bpsk ∧ State.reset.Idle

/-- Rules R185 and R187: reset puts every register at 0 from any state, and leaves every cell of the
data memories and CROM as they were. -/
def Obligations.ResetClearsRegistersKeepsMemories : Prop :=
  ∀ (s : State) (rest : List HostMove), s.script = .reset :: rest →
    ∃ t, step s = .next t ∧ (∀ r : Reg, t.readReg r = 0) ∧ t.Idle ∧ t.cfg = s.cfg ∧
      t.script = rest ∧ t.transcript = s.transcript ∧
      (∀ a, t.readBit a = s.readBit a) ∧ (∀ a, t.readSym a = s.readSym a) ∧
      (∀ a, t.readPls a = s.readPls a) ∧ (∀ a, t.readSmp a = s.readSmp a)

/-- Rule R186: reset asserted while a command executes puts every register at 0 and leaves every
space but the command's output unchanged. The output lists no cell and takes the next epoch, so that
it holds free values of its own, tied to nothing it held before (the model's form of "unspecified",
log 6). -/
def Obligations.ResetDuringCommandSparesOtherSpaces : Prop :=
  ∀ (s : State) (w : Word) (rest : List HostMove), s.script = .resetDuring w :: rest → s.Idle →
    ∃ t, step s = .next t ∧ (∀ r : Reg, t.readReg r = 0) ∧ t.cfg = s.cfg ∧ t.script = rest ∧
      t.transcript = s.transcript ∧
      (w ≠ 0x11000000#32 → ∀ a, t.readBit a = s.readBit a) ∧
      (w ≠ 0x10000000#32 → ∀ a, t.readSym a = s.readSym a) ∧
      (∀ a, t.readPls a = s.readPls a) ∧
      (w ≠ 0x12000000#32 → ∀ a, t.readSmp a = s.readSmp a) ∧
      (w = 0x11000000#32 → t.bit.epoch = s.bit.epoch + 1 ∧ ∀ a, t.bit.read a = none) ∧
      (w = 0x10000000#32 → t.sym.epoch = s.sym.epoch + 1 ∧ ∀ a, t.sym.read a = none) ∧
      (w = 0x12000000#32 → t.smp.epoch = s.smp.epoch + 1 ∧ ∀ a, t.smp.read a = none)

/-- Rule R180: with no move left the block holds its state. -/
def Obligations.IdleBlockHoldsItsState : Prop :=
  ∀ s : State, s.script = [] → step s = .next s

/-- Rule R189: no step changes a table entry or any other parameter. -/
def Obligations.TablesNeverChange : Prop :=
  ∀ (s t : State), step s = .next t →
    t.cfg = s.cfg ∧ ∀ (m : Mode) (n : Nat), t.cfg.cromAt m n = s.cfg.cromAt m n

/-! ### Invariants and runs -/

/-- The reset state meets the invariant of rule R36. -/
def Obligations.InvariantAtReset : Prop := State.reset.Inv

/-- Rule R36: every step, faulting or not, keeps the invariant: lengths within capacities, legal MODE
and ERR, FCMD 0 while ERR is 0, every cell in its space and its domain, memories canonical. -/
def Obligations.EveryStepKeepsTheInvariant : Prop :=
  ∀ (s t : State), s.Inv → step s = .next t → t.Inv

/-- Rules R29, R30 and R196: a run of host moves without reset, from an idle state, that ends with
ERR = 0 has completed every word issued and CP counts them; one that ends faulted has stopped at the
word FCMD holds, at position CP among the words issued. That the words offered after a fault are used
up, so that the script ends empty, is the model's own (log 7, DEDUCED). -/
def Obligations.CpIsThePositionInTheRun : Prop :=
  ∀ (s t : State), s.Idle → (∀ mv ∈ s.script, mv.isReset = false) →
    Host.Core.run Sys2Proof.core s.script.length s = .next t →
    t.script = [] ∧
    (t.Idle → t.cp = s.cp + BitVec.ofNat 32 (issuedWords s.script).length) ∧
    (t.Faulted → ∃ n, (issuedWords s.script)[n]? = some t.fcmd ∧
      t.cp = s.cp + BitVec.ofNat 32 n)
end

