-- ==== Sys2Proof/Laws/Memory.lean ====
section
/-! SUPPORT. What the memory operations do: reads after writes, and that every operation keeps the
canonical form. -/

namespace Sys2Proof.Machine

variable {α : Type}

/-! ### Reads -/

theorem lookupCell_insertCell (i : Nat) (v : α) (l : List (Nat × α)) (j : Nat) :
    lookupCell (insertCell i v l) j = if i = j then some v else lookupCell l j := by
  induction l with
  | nil => simp [insertCell, lookupCell]
  | cons c rest ih =>
    obtain ⟨a, u⟩ := c
    simp only [insertCell]
    split
    · simp [lookupCell]
    · split
      · subst_vars; simp only [lookupCell]; split <;> simp_all
      · simp only [lookupCell]
        rw [ih]
        split <;> split <;> simp_all

theorem lookupCell_numberFrom (vs : List α) (n j : Nat) (rest : List (Nat × α)) :
    lookupCell (numberFrom n vs ++ rest) j =
      if n ≤ j ∧ j < n + vs.length then vs[j - n]? else lookupCell rest j := by
  induction vs generalizing n with
  | nil =>
    simp only [numberFrom, List.nil_append, List.length_nil]
    rw [if_neg (by omega)]
  | cons v vs ih =>
    simp only [numberFrom, List.cons_append, lookupCell, List.length_cons]
    rcases Nat.lt_trichotomy n j with h | h | h
    · rw [if_neg (by omega), ih (n + 1)]
      have e : j - n = (j - (n + 1)) + 1 := by omega
      rw [e, List.getElem?_cons_succ]
      by_cases hj : j < n + 1 + vs.length
      · rw [if_pos ⟨by omega, hj⟩, if_pos ⟨by omega, by omega⟩]
      · rw [if_neg (by omega), if_neg (by omega)]
    · subst h
      rw [if_pos rfl, if_pos ⟨by omega, by omega⟩]
      simp
    · rw [if_neg (by omega), ih (n + 1), if_neg (by omega), if_neg (by omega)]

theorem lookupCell_filter (n j : Nat) (l : List (Nat × α)) (h : n ≤ j) :
    lookupCell (l.filter fun c => decide (n ≤ c.1)) j = lookupCell l j := by
  induction l with
  | nil => rfl
  | cons c rest ih =>
    obtain ⟨a, u⟩ := c
    by_cases ha : n ≤ a
    · rw [List.filter_cons_of_pos (by simpa using ha)]
      simp only [lookupCell, ih]
    · rw [List.filter_cons_of_neg (by simpa using ha), ih]
      simp only [lookupCell]
      rw [if_neg (by omega)]

/-- A read after a write of one cell (rule R52). -/
theorem Memory.read_write (m : Memory α) (i : Nat) (v : α) (j : Nat) :
    (m.write i v).read j = if i = j then some v else m.read j :=
  lookupCell_insertCell i v m.cells j

/-- A read after a result sequence is written (rule R69). -/
theorem Memory.read_writeSeq (m : Memory α) (vs : List α) (j : Nat) :
    (m.writeSeq vs).read j = if j < vs.length then vs[j]? else m.read j := by
  show lookupCell (numberFrom 0 vs ++ _) j = _
  rw [lookupCell_numberFrom]
  by_cases h : j < vs.length
  · rw [if_pos ⟨Nat.zero_le _, by omega⟩, if_pos h, Nat.sub_zero]
  · rw [if_neg (by omega), if_neg h]
    exact lookupCell_filter _ _ _ (by omega)

theorem Memory.read_forget (m : Memory α) (i : Nat) : m.forget.read i = none := rfl

@[simp] theorem Memory.write_epoch (m : Memory α) (i : Nat) (v : α) :
    (m.write i v).epoch = m.epoch := rfl
@[simp] theorem Memory.writeSeq_epoch (m : Memory α) (vs : List α) :
    (m.writeSeq vs).epoch = m.epoch := rfl
@[simp] theorem Memory.forget_epoch (m : Memory α) : m.forget.epoch = m.epoch + 1 := rfl

/-! ### The canonical form -/

theorem risingFrom_weaken {lo hi : Nat} {l : List (Nat × α)} (h : lo ≤ hi)
    (hl : risingFrom hi l = true) : risingFrom lo l = true := by
  cases l with
  | nil => rfl
  | cons c rest =>
    simp only [risingFrom, Bool.and_eq_true, decide_eq_true_eq] at hl ⊢
    exact ⟨by omega, hl.2⟩

theorem risingFrom_insertCell {lo i : Nat} (v : α) {l : List (Nat × α)} (hi : lo ≤ i)
    (hl : risingFrom lo l = true) : risingFrom lo (insertCell i v l) = true := by
  induction l generalizing lo with
  | nil => simpa [insertCell, risingFrom] using hi
  | cons c rest ih =>
    obtain ⟨a, u⟩ := c
    simp only [risingFrom, Bool.and_eq_true, decide_eq_true_eq] at hl
    simp only [insertCell]
    split
    · simp only [risingFrom, Bool.and_eq_true, decide_eq_true_eq]
      exact ⟨hi, by omega, hl.2⟩
    · split
      · subst_vars; simpa [risingFrom] using hl
      · simp only [risingFrom, Bool.and_eq_true, decide_eq_true_eq]
        exact ⟨hl.1, ih (by omega) hl.2⟩

theorem risingFrom_numberFrom (vs : List α) (n : Nat) (rest : List (Nat × α))
    (h : risingFrom (n + vs.length) rest = true) :
    risingFrom n (numberFrom n vs ++ rest) = true := by
  induction vs generalizing n with
  | nil => simpa [numberFrom] using h
  | cons v vs ih =>
    simp only [numberFrom, List.cons_append, risingFrom, Bool.and_eq_true, decide_eq_true_eq]
    refine ⟨le_refl _, ih (n + 1) ?_⟩
    rwa [List.length_cons, show n + (vs.length + 1) = n + 1 + vs.length by omega] at h

theorem risingFrom_filter (n lo : Nat) {l : List (Nat × α)} (h : risingFrom lo l = true) :
    risingFrom (max n lo) (l.filter fun c => decide (n ≤ c.1)) = true := by
  induction l generalizing lo with
  | nil => rfl
  | cons c rest ih =>
    obtain ⟨a, u⟩ := c
    simp only [risingFrom, Bool.and_eq_true, decide_eq_true_eq] at h
    by_cases ha : n ≤ a
    · rw [List.filter_cons_of_pos (by simpa using ha)]
      simp only [risingFrom, Bool.and_eq_true, decide_eq_true_eq]
      exact ⟨by omega, risingFrom_weaken (by omega) (ih (a + 1) h.2)⟩
    · rw [List.filter_cons_of_neg (by simpa using ha)]
      exact risingFrom_weaken (by omega) (ih (a + 1) h.2)

/-- A memory nothing has written is in canonical form. -/
theorem unwritten_wf : (unwritten α).wf = true := rfl

/-- Writing one cell keeps the canonical form. -/
theorem Memory.write_wf (m : Memory α) (i : Nat) (v : α) (h : m.wf = true) :
    (m.write i v).wf = true := risingFrom_insertCell v (Nat.zero_le i) h

/-- Writing a result sequence keeps the canonical form. -/
theorem Memory.writeSeq_wf (m : Memory α) (vs : List α) (h : m.wf = true) :
    (m.writeSeq vs).wf = true := by
  refine risingFrom_numberFrom vs 0 _ ?_
  exact risingFrom_weaken (by omega) (risingFrom_filter vs.length 0 h)

/-- Forgetting a memory's contents keeps the canonical form. -/
theorem Memory.forget_wf (m : Memory α) : m.forget.wf = true := rfl

/-! ### Equal reads of canonical memories -/

/-- Below its first index a canonical list lists nothing. -/
theorem lookupCell_below {lo i : Nat} {l : List (Nat × α)} (h : risingFrom lo l = true)
    (hi : i < lo) : lookupCell l i = none := by
  induction l generalizing lo with
  | nil => rfl
  | cons c rest ih =>
    obtain ⟨a, u⟩ := c
    simp only [risingFrom, Bool.and_eq_true, decide_eq_true_eq] at h
    simp only [lookupCell]
    rw [if_neg (by omega)]
    exact ih h.2 (by omega)

theorem eq_of_lookupCell_eq {lo : Nat} {l k : List (Nat × α)} (hl : risingFrom lo l = true)
    (hk : risingFrom lo k = true) (h : ∀ i, lookupCell l i = lookupCell k i) : l = k := by
  induction l generalizing lo k with
  | nil =>
    cases k with
    | nil => rfl
    | cons c rest => simpa [lookupCell] using h c.1
  | cons c rest ih =>
    obtain ⟨a, u⟩ := c
    cases k with
    | nil => simpa [lookupCell] using h a
    | cons d rest' =>
      obtain ⟨b, v⟩ := d
      simp only [risingFrom, Bool.and_eq_true, decide_eq_true_eq] at hl hk
      have ha := h a
      have hb := h b
      simp only [lookupCell] at ha hb
      rcases Nat.lt_trichotomy a b with e | e | e
      · simp [show b ≠ a by omega, lookupCell_below hk.2 (show a < b + 1 by omega)] at ha
      · subst e
        obtain rfl : u = v := by simpa using ha
        rw [ih hl.2 hk.2 fun i => ?_]
        by_cases hi : i < a + 1
        · rw [lookupCell_below hl.2 hi, lookupCell_below hk.2 hi]
        · simpa [lookupCell, show a ≠ i by omega] using h i
      · simp [show a ≠ b by omega, lookupCell_below hl.2 (show b < a + 1 by omega)] at hb

/-- Two canonical memories of one epoch that read the same are the same data. -/
theorem Memory.eq_of_read_eq {m n : Memory α} (hm : m.wf = true) (hn : n.wf = true)
    (he : m.epoch = n.epoch) (h : ∀ i, m.read i = n.read i) : m = n := by
  obtain ⟨cm, em⟩ := m
  obtain ⟨cn, en⟩ := n
  obtain rfl : em = en := he
  obtain rfl : cm = cn := eq_of_lookupCell_eq hm hn h
  rfl

/-! ### Which cells are listed -/

theorem mem_insertCell {i : Nat} {v : α} {l : List (Nat × α)} {c : Nat × α}
    (h : c ∈ insertCell i v l) : c = (i, v) ∨ c ∈ l := by
  induction l with
  | nil => simpa [insertCell] using h
  | cons d rest ih =>
    obtain ⟨a, u⟩ := d
    simp only [insertCell] at h
    split at h
    · simpa using h
    · split at h
      · rcases List.mem_cons.mp h with h | h
        · exact .inl h
        · exact .inr (List.mem_cons_of_mem _ h)
      · rcases List.mem_cons.mp h with h | h
        · exact .inr (h ▸ List.mem_cons_self)
        · exact (ih h).imp_right (List.mem_cons_of_mem _)

theorem mem_numberFrom {vs : List α} {n : Nat} {c : Nat × α} (h : c ∈ numberFrom n vs) :
    c.1 < n + vs.length ∧ c.2 ∈ vs := by
  induction vs generalizing n with
  | nil => simp [numberFrom] at h
  | cons v vs ih =>
    rcases List.mem_cons.mp h with h | h
    · subst h
      exact ⟨by simp, List.mem_cons_self⟩
    · obtain ⟨h1, h2⟩ := ih h
      refine ⟨?_, List.mem_cons_of_mem _ h2⟩
      rw [List.length_cons]
      omega

/-- A cell listed after one write is the written one or was listed before. -/
theorem Memory.mem_write {m : Memory α} {i : Nat} {v : α} {c : Nat × α}
    (h : c ∈ (m.write i v).cells) : c = (i, v) ∨ c ∈ m.cells := mem_insertCell h

/-- A cell listed after a result sequence is written is one of the sequence or was listed before. -/
theorem Memory.mem_writeSeq {m : Memory α} {vs : List α} {c : Nat × α}
    (h : c ∈ (m.writeSeq vs).cells) : (c.1 < vs.length ∧ c.2 ∈ vs) ∨ c ∈ m.cells := by
  rcases List.mem_append.mp h with h | h
  · obtain ⟨h1, h2⟩ := mem_numberFrom h
    exact .inl ⟨by omega, h2⟩
  · exact .inr (List.mem_filter.mp h).1

end Sys2Proof.Machine
end

