-- ==== Sys2Proof/Laws/State.lean ====
section
/-! SUPPORT. One lemma per field per update of the state, and per cell read per update, all by rfl. -/

namespace Sys2Proof.Machine

variable (s : State)

/-! ### setMode -/

@[simp] theorem State.setMode_cfg (m : Mode) : (s.setMode m).cfg = s.cfg := rfl
@[simp] theorem State.setMode_mode (m : Mode) : (s.setMode m).mode = m := rfl
@[simp] theorem State.setMode_fst (m : Mode) : (s.setMode m).fst = s.fst := rfl
@[simp] theorem State.setMode_blen (m : Mode) : (s.setMode m).blen = s.blen := rfl
@[simp] theorem State.setMode_slen (m : Mode) : (s.setMode m).slen = s.slen := rfl
@[simp] theorem State.setMode_plen (m : Mode) : (s.setMode m).plen = s.plen := rfl
@[simp] theorem State.setMode_ylen (m : Mode) : (s.setMode m).ylen = s.ylen := rfl
@[simp] theorem State.setMode_err (m : Mode) : (s.setMode m).err = s.err := rfl
@[simp] theorem State.setMode_fcmd (m : Mode) : (s.setMode m).fcmd = s.fcmd := rfl
@[simp] theorem State.setMode_cp (m : Mode) : (s.setMode m).cp = s.cp := rfl
@[simp] theorem State.setMode_bit (m : Mode) : (s.setMode m).bit = s.bit := rfl
@[simp] theorem State.setMode_sym (m : Mode) : (s.setMode m).sym = s.sym := rfl
@[simp] theorem State.setMode_pls (m : Mode) : (s.setMode m).pls = s.pls := rfl
@[simp] theorem State.setMode_smp (m : Mode) : (s.setMode m).smp = s.smp := rfl
@[simp] theorem State.setMode_script (m : Mode) : (s.setMode m).script = s.script := rfl
@[simp] theorem State.setMode_transcript (m : Mode) : (s.setMode m).transcript = s.transcript := rfl
@[simp] theorem State.setMode_readBit (m : Mode) (i : Nat) :
    (s.setMode m).readBit i = s.readBit i := rfl
@[simp] theorem State.setMode_readSym (m : Mode) (i : Nat) :
    (s.setMode m).readSym i = s.readSym i := rfl
@[simp] theorem State.setMode_readPls (m : Mode) (i : Nat) :
    (s.setMode m).readPls i = s.readPls i := rfl
@[simp] theorem State.setMode_readSmp (m : Mode) (i : Nat) :
    (s.setMode m).readSmp i = s.readSmp i := rfl

/-! ### setFst -/

@[simp] theorem State.setFst_cfg (n : BitVec 16) : (s.setFst n).cfg = s.cfg := rfl
@[simp] theorem State.setFst_mode (n : BitVec 16) : (s.setFst n).mode = s.mode := rfl
@[simp] theorem State.setFst_fst (n : BitVec 16) : (s.setFst n).fst = n := rfl
@[simp] theorem State.setFst_blen (n : BitVec 16) : (s.setFst n).blen = s.blen := rfl
@[simp] theorem State.setFst_slen (n : BitVec 16) : (s.setFst n).slen = s.slen := rfl
@[simp] theorem State.setFst_plen (n : BitVec 16) : (s.setFst n).plen = s.plen := rfl
@[simp] theorem State.setFst_ylen (n : BitVec 16) : (s.setFst n).ylen = s.ylen := rfl
@[simp] theorem State.setFst_err (n : BitVec 16) : (s.setFst n).err = s.err := rfl
@[simp] theorem State.setFst_fcmd (n : BitVec 16) : (s.setFst n).fcmd = s.fcmd := rfl
@[simp] theorem State.setFst_cp (n : BitVec 16) : (s.setFst n).cp = s.cp := rfl
@[simp] theorem State.setFst_bit (n : BitVec 16) : (s.setFst n).bit = s.bit := rfl
@[simp] theorem State.setFst_sym (n : BitVec 16) : (s.setFst n).sym = s.sym := rfl
@[simp] theorem State.setFst_pls (n : BitVec 16) : (s.setFst n).pls = s.pls := rfl
@[simp] theorem State.setFst_smp (n : BitVec 16) : (s.setFst n).smp = s.smp := rfl
@[simp] theorem State.setFst_script (n : BitVec 16) : (s.setFst n).script = s.script := rfl
@[simp] theorem State.setFst_transcript (n : BitVec 16) : (s.setFst n).transcript = s.transcript := rfl
@[simp] theorem State.setFst_readBit (n : BitVec 16) (i : Nat) :
    (s.setFst n).readBit i = s.readBit i := rfl
@[simp] theorem State.setFst_readSym (n : BitVec 16) (i : Nat) :
    (s.setFst n).readSym i = s.readSym i := rfl
@[simp] theorem State.setFst_readPls (n : BitVec 16) (i : Nat) :
    (s.setFst n).readPls i = s.readPls i := rfl
@[simp] theorem State.setFst_readSmp (n : BitVec 16) (i : Nat) :
    (s.setFst n).readSmp i = s.readSmp i := rfl

/-! ### setBlen -/

@[simp] theorem State.setBlen_cfg (n : BitVec 24) : (s.setBlen n).cfg = s.cfg := rfl
@[simp] theorem State.setBlen_mode (n : BitVec 24) : (s.setBlen n).mode = s.mode := rfl
@[simp] theorem State.setBlen_fst (n : BitVec 24) : (s.setBlen n).fst = s.fst := rfl
@[simp] theorem State.setBlen_blen (n : BitVec 24) : (s.setBlen n).blen = n := rfl
@[simp] theorem State.setBlen_slen (n : BitVec 24) : (s.setBlen n).slen = s.slen := rfl
@[simp] theorem State.setBlen_plen (n : BitVec 24) : (s.setBlen n).plen = s.plen := rfl
@[simp] theorem State.setBlen_ylen (n : BitVec 24) : (s.setBlen n).ylen = s.ylen := rfl
@[simp] theorem State.setBlen_err (n : BitVec 24) : (s.setBlen n).err = s.err := rfl
@[simp] theorem State.setBlen_fcmd (n : BitVec 24) : (s.setBlen n).fcmd = s.fcmd := rfl
@[simp] theorem State.setBlen_cp (n : BitVec 24) : (s.setBlen n).cp = s.cp := rfl
@[simp] theorem State.setBlen_bit (n : BitVec 24) : (s.setBlen n).bit = s.bit := rfl
@[simp] theorem State.setBlen_sym (n : BitVec 24) : (s.setBlen n).sym = s.sym := rfl
@[simp] theorem State.setBlen_pls (n : BitVec 24) : (s.setBlen n).pls = s.pls := rfl
@[simp] theorem State.setBlen_smp (n : BitVec 24) : (s.setBlen n).smp = s.smp := rfl
@[simp] theorem State.setBlen_script (n : BitVec 24) : (s.setBlen n).script = s.script := rfl
@[simp] theorem State.setBlen_transcript (n : BitVec 24) : (s.setBlen n).transcript = s.transcript := rfl
@[simp] theorem State.setBlen_readBit (n : BitVec 24) (i : Nat) :
    (s.setBlen n).readBit i = s.readBit i := rfl
@[simp] theorem State.setBlen_readSym (n : BitVec 24) (i : Nat) :
    (s.setBlen n).readSym i = s.readSym i := rfl
@[simp] theorem State.setBlen_readPls (n : BitVec 24) (i : Nat) :
    (s.setBlen n).readPls i = s.readPls i := rfl
@[simp] theorem State.setBlen_readSmp (n : BitVec 24) (i : Nat) :
    (s.setBlen n).readSmp i = s.readSmp i := rfl

/-! ### setSlen -/

@[simp] theorem State.setSlen_cfg (n : BitVec 24) : (s.setSlen n).cfg = s.cfg := rfl
@[simp] theorem State.setSlen_mode (n : BitVec 24) : (s.setSlen n).mode = s.mode := rfl
@[simp] theorem State.setSlen_fst (n : BitVec 24) : (s.setSlen n).fst = s.fst := rfl
@[simp] theorem State.setSlen_blen (n : BitVec 24) : (s.setSlen n).blen = s.blen := rfl
@[simp] theorem State.setSlen_slen (n : BitVec 24) : (s.setSlen n).slen = n := rfl
@[simp] theorem State.setSlen_plen (n : BitVec 24) : (s.setSlen n).plen = s.plen := rfl
@[simp] theorem State.setSlen_ylen (n : BitVec 24) : (s.setSlen n).ylen = s.ylen := rfl
@[simp] theorem State.setSlen_err (n : BitVec 24) : (s.setSlen n).err = s.err := rfl
@[simp] theorem State.setSlen_fcmd (n : BitVec 24) : (s.setSlen n).fcmd = s.fcmd := rfl
@[simp] theorem State.setSlen_cp (n : BitVec 24) : (s.setSlen n).cp = s.cp := rfl
@[simp] theorem State.setSlen_bit (n : BitVec 24) : (s.setSlen n).bit = s.bit := rfl
@[simp] theorem State.setSlen_sym (n : BitVec 24) : (s.setSlen n).sym = s.sym := rfl
@[simp] theorem State.setSlen_pls (n : BitVec 24) : (s.setSlen n).pls = s.pls := rfl
@[simp] theorem State.setSlen_smp (n : BitVec 24) : (s.setSlen n).smp = s.smp := rfl
@[simp] theorem State.setSlen_script (n : BitVec 24) : (s.setSlen n).script = s.script := rfl
@[simp] theorem State.setSlen_transcript (n : BitVec 24) : (s.setSlen n).transcript = s.transcript := rfl
@[simp] theorem State.setSlen_readBit (n : BitVec 24) (i : Nat) :
    (s.setSlen n).readBit i = s.readBit i := rfl
@[simp] theorem State.setSlen_readSym (n : BitVec 24) (i : Nat) :
    (s.setSlen n).readSym i = s.readSym i := rfl
@[simp] theorem State.setSlen_readPls (n : BitVec 24) (i : Nat) :
    (s.setSlen n).readPls i = s.readPls i := rfl
@[simp] theorem State.setSlen_readSmp (n : BitVec 24) (i : Nat) :
    (s.setSlen n).readSmp i = s.readSmp i := rfl

/-! ### setPlen -/

@[simp] theorem State.setPlen_cfg (n : BitVec 24) : (s.setPlen n).cfg = s.cfg := rfl
@[simp] theorem State.setPlen_mode (n : BitVec 24) : (s.setPlen n).mode = s.mode := rfl
@[simp] theorem State.setPlen_fst (n : BitVec 24) : (s.setPlen n).fst = s.fst := rfl
@[simp] theorem State.setPlen_blen (n : BitVec 24) : (s.setPlen n).blen = s.blen := rfl
@[simp] theorem State.setPlen_slen (n : BitVec 24) : (s.setPlen n).slen = s.slen := rfl
@[simp] theorem State.setPlen_plen (n : BitVec 24) : (s.setPlen n).plen = n := rfl
@[simp] theorem State.setPlen_ylen (n : BitVec 24) : (s.setPlen n).ylen = s.ylen := rfl
@[simp] theorem State.setPlen_err (n : BitVec 24) : (s.setPlen n).err = s.err := rfl
@[simp] theorem State.setPlen_fcmd (n : BitVec 24) : (s.setPlen n).fcmd = s.fcmd := rfl
@[simp] theorem State.setPlen_cp (n : BitVec 24) : (s.setPlen n).cp = s.cp := rfl
@[simp] theorem State.setPlen_bit (n : BitVec 24) : (s.setPlen n).bit = s.bit := rfl
@[simp] theorem State.setPlen_sym (n : BitVec 24) : (s.setPlen n).sym = s.sym := rfl
@[simp] theorem State.setPlen_pls (n : BitVec 24) : (s.setPlen n).pls = s.pls := rfl
@[simp] theorem State.setPlen_smp (n : BitVec 24) : (s.setPlen n).smp = s.smp := rfl
@[simp] theorem State.setPlen_script (n : BitVec 24) : (s.setPlen n).script = s.script := rfl
@[simp] theorem State.setPlen_transcript (n : BitVec 24) : (s.setPlen n).transcript = s.transcript := rfl
@[simp] theorem State.setPlen_readBit (n : BitVec 24) (i : Nat) :
    (s.setPlen n).readBit i = s.readBit i := rfl
@[simp] theorem State.setPlen_readSym (n : BitVec 24) (i : Nat) :
    (s.setPlen n).readSym i = s.readSym i := rfl
@[simp] theorem State.setPlen_readPls (n : BitVec 24) (i : Nat) :
    (s.setPlen n).readPls i = s.readPls i := rfl
@[simp] theorem State.setPlen_readSmp (n : BitVec 24) (i : Nat) :
    (s.setPlen n).readSmp i = s.readSmp i := rfl

/-! ### setYlen -/

@[simp] theorem State.setYlen_cfg (n : BitVec 24) : (s.setYlen n).cfg = s.cfg := rfl
@[simp] theorem State.setYlen_mode (n : BitVec 24) : (s.setYlen n).mode = s.mode := rfl
@[simp] theorem State.setYlen_fst (n : BitVec 24) : (s.setYlen n).fst = s.fst := rfl
@[simp] theorem State.setYlen_blen (n : BitVec 24) : (s.setYlen n).blen = s.blen := rfl
@[simp] theorem State.setYlen_slen (n : BitVec 24) : (s.setYlen n).slen = s.slen := rfl
@[simp] theorem State.setYlen_plen (n : BitVec 24) : (s.setYlen n).plen = s.plen := rfl
@[simp] theorem State.setYlen_ylen (n : BitVec 24) : (s.setYlen n).ylen = n := rfl
@[simp] theorem State.setYlen_err (n : BitVec 24) : (s.setYlen n).err = s.err := rfl
@[simp] theorem State.setYlen_fcmd (n : BitVec 24) : (s.setYlen n).fcmd = s.fcmd := rfl
@[simp] theorem State.setYlen_cp (n : BitVec 24) : (s.setYlen n).cp = s.cp := rfl
@[simp] theorem State.setYlen_bit (n : BitVec 24) : (s.setYlen n).bit = s.bit := rfl
@[simp] theorem State.setYlen_sym (n : BitVec 24) : (s.setYlen n).sym = s.sym := rfl
@[simp] theorem State.setYlen_pls (n : BitVec 24) : (s.setYlen n).pls = s.pls := rfl
@[simp] theorem State.setYlen_smp (n : BitVec 24) : (s.setYlen n).smp = s.smp := rfl
@[simp] theorem State.setYlen_script (n : BitVec 24) : (s.setYlen n).script = s.script := rfl
@[simp] theorem State.setYlen_transcript (n : BitVec 24) : (s.setYlen n).transcript = s.transcript := rfl
@[simp] theorem State.setYlen_readBit (n : BitVec 24) (i : Nat) :
    (s.setYlen n).readBit i = s.readBit i := rfl
@[simp] theorem State.setYlen_readSym (n : BitVec 24) (i : Nat) :
    (s.setYlen n).readSym i = s.readSym i := rfl
@[simp] theorem State.setYlen_readPls (n : BitVec 24) (i : Nat) :
    (s.setYlen n).readPls i = s.readPls i := rfl
@[simp] theorem State.setYlen_readSmp (n : BitVec 24) (i : Nat) :
    (s.setYlen n).readSmp i = s.readSmp i := rfl

/-! ### setBit -/

@[simp] theorem State.setBit_cfg (m : Memory (BitVec 1)) : (s.setBit m).cfg = s.cfg := rfl
@[simp] theorem State.setBit_mode (m : Memory (BitVec 1)) : (s.setBit m).mode = s.mode := rfl
@[simp] theorem State.setBit_fst (m : Memory (BitVec 1)) : (s.setBit m).fst = s.fst := rfl
@[simp] theorem State.setBit_blen (m : Memory (BitVec 1)) : (s.setBit m).blen = s.blen := rfl
@[simp] theorem State.setBit_slen (m : Memory (BitVec 1)) : (s.setBit m).slen = s.slen := rfl
@[simp] theorem State.setBit_plen (m : Memory (BitVec 1)) : (s.setBit m).plen = s.plen := rfl
@[simp] theorem State.setBit_ylen (m : Memory (BitVec 1)) : (s.setBit m).ylen = s.ylen := rfl
@[simp] theorem State.setBit_err (m : Memory (BitVec 1)) : (s.setBit m).err = s.err := rfl
@[simp] theorem State.setBit_fcmd (m : Memory (BitVec 1)) : (s.setBit m).fcmd = s.fcmd := rfl
@[simp] theorem State.setBit_cp (m : Memory (BitVec 1)) : (s.setBit m).cp = s.cp := rfl
@[simp] theorem State.setBit_bit (m : Memory (BitVec 1)) : (s.setBit m).bit = m := rfl
@[simp] theorem State.setBit_sym (m : Memory (BitVec 1)) : (s.setBit m).sym = s.sym := rfl
@[simp] theorem State.setBit_pls (m : Memory (BitVec 1)) : (s.setBit m).pls = s.pls := rfl
@[simp] theorem State.setBit_smp (m : Memory (BitVec 1)) : (s.setBit m).smp = s.smp := rfl
@[simp] theorem State.setBit_script (m : Memory (BitVec 1)) : (s.setBit m).script = s.script := rfl
@[simp] theorem State.setBit_transcript (m : Memory (BitVec 1)) : (s.setBit m).transcript = s.transcript := rfl
@[simp] theorem State.setBit_readSym (m : Memory (BitVec 1)) (i : Nat) :
    (s.setBit m).readSym i = s.readSym i := rfl
@[simp] theorem State.setBit_readPls (m : Memory (BitVec 1)) (i : Nat) :
    (s.setBit m).readPls i = s.readPls i := rfl
@[simp] theorem State.setBit_readSmp (m : Memory (BitVec 1)) (i : Nat) :
    (s.setBit m).readSmp i = s.readSmp i := rfl

/-! ### setSym -/

@[simp] theorem State.setSym_cfg (m : Memory Cx) : (s.setSym m).cfg = s.cfg := rfl
@[simp] theorem State.setSym_mode (m : Memory Cx) : (s.setSym m).mode = s.mode := rfl
@[simp] theorem State.setSym_fst (m : Memory Cx) : (s.setSym m).fst = s.fst := rfl
@[simp] theorem State.setSym_blen (m : Memory Cx) : (s.setSym m).blen = s.blen := rfl
@[simp] theorem State.setSym_slen (m : Memory Cx) : (s.setSym m).slen = s.slen := rfl
@[simp] theorem State.setSym_plen (m : Memory Cx) : (s.setSym m).plen = s.plen := rfl
@[simp] theorem State.setSym_ylen (m : Memory Cx) : (s.setSym m).ylen = s.ylen := rfl
@[simp] theorem State.setSym_err (m : Memory Cx) : (s.setSym m).err = s.err := rfl
@[simp] theorem State.setSym_fcmd (m : Memory Cx) : (s.setSym m).fcmd = s.fcmd := rfl
@[simp] theorem State.setSym_cp (m : Memory Cx) : (s.setSym m).cp = s.cp := rfl
@[simp] theorem State.setSym_bit (m : Memory Cx) : (s.setSym m).bit = s.bit := rfl
@[simp] theorem State.setSym_sym (m : Memory Cx) : (s.setSym m).sym = m := rfl
@[simp] theorem State.setSym_pls (m : Memory Cx) : (s.setSym m).pls = s.pls := rfl
@[simp] theorem State.setSym_smp (m : Memory Cx) : (s.setSym m).smp = s.smp := rfl
@[simp] theorem State.setSym_script (m : Memory Cx) : (s.setSym m).script = s.script := rfl
@[simp] theorem State.setSym_transcript (m : Memory Cx) : (s.setSym m).transcript = s.transcript := rfl
@[simp] theorem State.setSym_readBit (m : Memory Cx) (i : Nat) :
    (s.setSym m).readBit i = s.readBit i := rfl
@[simp] theorem State.setSym_readPls (m : Memory Cx) (i : Nat) :
    (s.setSym m).readPls i = s.readPls i := rfl
@[simp] theorem State.setSym_readSmp (m : Memory Cx) (i : Nat) :
    (s.setSym m).readSmp i = s.readSmp i := rfl

/-! ### setPls -/

@[simp] theorem State.setPls_cfg (m : Memory Cx) : (s.setPls m).cfg = s.cfg := rfl
@[simp] theorem State.setPls_mode (m : Memory Cx) : (s.setPls m).mode = s.mode := rfl
@[simp] theorem State.setPls_fst (m : Memory Cx) : (s.setPls m).fst = s.fst := rfl
@[simp] theorem State.setPls_blen (m : Memory Cx) : (s.setPls m).blen = s.blen := rfl
@[simp] theorem State.setPls_slen (m : Memory Cx) : (s.setPls m).slen = s.slen := rfl
@[simp] theorem State.setPls_plen (m : Memory Cx) : (s.setPls m).plen = s.plen := rfl
@[simp] theorem State.setPls_ylen (m : Memory Cx) : (s.setPls m).ylen = s.ylen := rfl
@[simp] theorem State.setPls_err (m : Memory Cx) : (s.setPls m).err = s.err := rfl
@[simp] theorem State.setPls_fcmd (m : Memory Cx) : (s.setPls m).fcmd = s.fcmd := rfl
@[simp] theorem State.setPls_cp (m : Memory Cx) : (s.setPls m).cp = s.cp := rfl
@[simp] theorem State.setPls_bit (m : Memory Cx) : (s.setPls m).bit = s.bit := rfl
@[simp] theorem State.setPls_sym (m : Memory Cx) : (s.setPls m).sym = s.sym := rfl
@[simp] theorem State.setPls_pls (m : Memory Cx) : (s.setPls m).pls = m := rfl
@[simp] theorem State.setPls_smp (m : Memory Cx) : (s.setPls m).smp = s.smp := rfl
@[simp] theorem State.setPls_script (m : Memory Cx) : (s.setPls m).script = s.script := rfl
@[simp] theorem State.setPls_transcript (m : Memory Cx) : (s.setPls m).transcript = s.transcript := rfl
@[simp] theorem State.setPls_readBit (m : Memory Cx) (i : Nat) :
    (s.setPls m).readBit i = s.readBit i := rfl
@[simp] theorem State.setPls_readSym (m : Memory Cx) (i : Nat) :
    (s.setPls m).readSym i = s.readSym i := rfl
@[simp] theorem State.setPls_readSmp (m : Memory Cx) (i : Nat) :
    (s.setPls m).readSmp i = s.readSmp i := rfl

/-! ### setSmp -/

@[simp] theorem State.setSmp_cfg (m : Memory Cx) : (s.setSmp m).cfg = s.cfg := rfl
@[simp] theorem State.setSmp_mode (m : Memory Cx) : (s.setSmp m).mode = s.mode := rfl
@[simp] theorem State.setSmp_fst (m : Memory Cx) : (s.setSmp m).fst = s.fst := rfl
@[simp] theorem State.setSmp_blen (m : Memory Cx) : (s.setSmp m).blen = s.blen := rfl
@[simp] theorem State.setSmp_slen (m : Memory Cx) : (s.setSmp m).slen = s.slen := rfl
@[simp] theorem State.setSmp_plen (m : Memory Cx) : (s.setSmp m).plen = s.plen := rfl
@[simp] theorem State.setSmp_ylen (m : Memory Cx) : (s.setSmp m).ylen = s.ylen := rfl
@[simp] theorem State.setSmp_err (m : Memory Cx) : (s.setSmp m).err = s.err := rfl
@[simp] theorem State.setSmp_fcmd (m : Memory Cx) : (s.setSmp m).fcmd = s.fcmd := rfl
@[simp] theorem State.setSmp_cp (m : Memory Cx) : (s.setSmp m).cp = s.cp := rfl
@[simp] theorem State.setSmp_bit (m : Memory Cx) : (s.setSmp m).bit = s.bit := rfl
@[simp] theorem State.setSmp_sym (m : Memory Cx) : (s.setSmp m).sym = s.sym := rfl
@[simp] theorem State.setSmp_pls (m : Memory Cx) : (s.setSmp m).pls = s.pls := rfl
@[simp] theorem State.setSmp_smp (m : Memory Cx) : (s.setSmp m).smp = m := rfl
@[simp] theorem State.setSmp_script (m : Memory Cx) : (s.setSmp m).script = s.script := rfl
@[simp] theorem State.setSmp_transcript (m : Memory Cx) : (s.setSmp m).transcript = s.transcript := rfl
@[simp] theorem State.setSmp_readBit (m : Memory Cx) (i : Nat) :
    (s.setSmp m).readBit i = s.readBit i := rfl
@[simp] theorem State.setSmp_readSym (m : Memory Cx) (i : Nat) :
    (s.setSmp m).readSym i = s.readSym i := rfl
@[simp] theorem State.setSmp_readPls (m : Memory Cx) (i : Nat) :
    (s.setSmp m).readPls i = s.readPls i := rfl

/-! ### setScript -/

@[simp] theorem State.setScript_cfg (ms : List HostMove) : (s.setScript ms).cfg = s.cfg := rfl
@[simp] theorem State.setScript_mode (ms : List HostMove) : (s.setScript ms).mode = s.mode := rfl
@[simp] theorem State.setScript_fst (ms : List HostMove) : (s.setScript ms).fst = s.fst := rfl
@[simp] theorem State.setScript_blen (ms : List HostMove) : (s.setScript ms).blen = s.blen := rfl
@[simp] theorem State.setScript_slen (ms : List HostMove) : (s.setScript ms).slen = s.slen := rfl
@[simp] theorem State.setScript_plen (ms : List HostMove) : (s.setScript ms).plen = s.plen := rfl
@[simp] theorem State.setScript_ylen (ms : List HostMove) : (s.setScript ms).ylen = s.ylen := rfl
@[simp] theorem State.setScript_err (ms : List HostMove) : (s.setScript ms).err = s.err := rfl
@[simp] theorem State.setScript_fcmd (ms : List HostMove) : (s.setScript ms).fcmd = s.fcmd := rfl
@[simp] theorem State.setScript_cp (ms : List HostMove) : (s.setScript ms).cp = s.cp := rfl
@[simp] theorem State.setScript_bit (ms : List HostMove) : (s.setScript ms).bit = s.bit := rfl
@[simp] theorem State.setScript_sym (ms : List HostMove) : (s.setScript ms).sym = s.sym := rfl
@[simp] theorem State.setScript_pls (ms : List HostMove) : (s.setScript ms).pls = s.pls := rfl
@[simp] theorem State.setScript_smp (ms : List HostMove) : (s.setScript ms).smp = s.smp := rfl
@[simp] theorem State.setScript_script (ms : List HostMove) : (s.setScript ms).script = ms := rfl
@[simp] theorem State.setScript_transcript (ms : List HostMove) : (s.setScript ms).transcript = s.transcript := rfl
@[simp] theorem State.setScript_readBit (ms : List HostMove) (i : Nat) :
    (s.setScript ms).readBit i = s.readBit i := rfl
@[simp] theorem State.setScript_readSym (ms : List HostMove) (i : Nat) :
    (s.setScript ms).readSym i = s.readSym i := rfl
@[simp] theorem State.setScript_readPls (ms : List HostMove) (i : Nat) :
    (s.setScript ms).readPls i = s.readPls i := rfl
@[simp] theorem State.setScript_readSmp (ms : List HostMove) (i : Nat) :
    (s.setScript ms).readSmp i = s.readSmp i := rfl

/-! ### record -/

@[simp] theorem State.record_cfg (v : ReadValue) : (s.record v).cfg = s.cfg := rfl
@[simp] theorem State.record_mode (v : ReadValue) : (s.record v).mode = s.mode := rfl
@[simp] theorem State.record_fst (v : ReadValue) : (s.record v).fst = s.fst := rfl
@[simp] theorem State.record_blen (v : ReadValue) : (s.record v).blen = s.blen := rfl
@[simp] theorem State.record_slen (v : ReadValue) : (s.record v).slen = s.slen := rfl
@[simp] theorem State.record_plen (v : ReadValue) : (s.record v).plen = s.plen := rfl
@[simp] theorem State.record_ylen (v : ReadValue) : (s.record v).ylen = s.ylen := rfl
@[simp] theorem State.record_err (v : ReadValue) : (s.record v).err = s.err := rfl
@[simp] theorem State.record_fcmd (v : ReadValue) : (s.record v).fcmd = s.fcmd := rfl
@[simp] theorem State.record_cp (v : ReadValue) : (s.record v).cp = s.cp := rfl
@[simp] theorem State.record_bit (v : ReadValue) : (s.record v).bit = s.bit := rfl
@[simp] theorem State.record_sym (v : ReadValue) : (s.record v).sym = s.sym := rfl
@[simp] theorem State.record_pls (v : ReadValue) : (s.record v).pls = s.pls := rfl
@[simp] theorem State.record_smp (v : ReadValue) : (s.record v).smp = s.smp := rfl
@[simp] theorem State.record_script (v : ReadValue) : (s.record v).script = s.script := rfl
@[simp] theorem State.record_transcript (v : ReadValue) : (s.record v).transcript = s.transcript ++ [v] := rfl
@[simp] theorem State.record_readBit (v : ReadValue) (i : Nat) :
    (s.record v).readBit i = s.readBit i := rfl
@[simp] theorem State.record_readSym (v : ReadValue) (i : Nat) :
    (s.record v).readSym i = s.readSym i := rfl
@[simp] theorem State.record_readPls (v : ReadValue) (i : Nat) :
    (s.record v).readPls i = s.readPls i := rfl
@[simp] theorem State.record_readSmp (v : ReadValue) (i : Nat) :
    (s.record v).readSmp i = s.readSmp i := rfl

/-! ### complete -/

@[simp] theorem State.complete_cfg : (s.complete).cfg = s.cfg := rfl
@[simp] theorem State.complete_mode : (s.complete).mode = s.mode := rfl
@[simp] theorem State.complete_fst : (s.complete).fst = s.fst := rfl
@[simp] theorem State.complete_blen : (s.complete).blen = s.blen := rfl
@[simp] theorem State.complete_slen : (s.complete).slen = s.slen := rfl
@[simp] theorem State.complete_plen : (s.complete).plen = s.plen := rfl
@[simp] theorem State.complete_ylen : (s.complete).ylen = s.ylen := rfl
@[simp] theorem State.complete_err : (s.complete).err = s.err := rfl
@[simp] theorem State.complete_fcmd : (s.complete).fcmd = s.fcmd := rfl
@[simp] theorem State.complete_cp : (s.complete).cp = s.cp + 1 := rfl
@[simp] theorem State.complete_bit : (s.complete).bit = s.bit := rfl
@[simp] theorem State.complete_sym : (s.complete).sym = s.sym := rfl
@[simp] theorem State.complete_pls : (s.complete).pls = s.pls := rfl
@[simp] theorem State.complete_smp : (s.complete).smp = s.smp := rfl
@[simp] theorem State.complete_script : (s.complete).script = s.script := rfl
@[simp] theorem State.complete_transcript : (s.complete).transcript = s.transcript := rfl
@[simp] theorem State.complete_readBit (i : Nat) :
    (s.complete).readBit i = s.readBit i := rfl
@[simp] theorem State.complete_readSym (i : Nat) :
    (s.complete).readSym i = s.readSym i := rfl
@[simp] theorem State.complete_readPls (i : Nat) :
    (s.complete).readPls i = s.readPls i := rfl
@[simp] theorem State.complete_readSmp (i : Nat) :
    (s.complete).readSmp i = s.readSmp i := rfl

/-! ### raiseFault -/

@[simp] theorem State.raiseFault_cfg (c : ErrCode) (w : Word) : (s.raiseFault c w).cfg = s.cfg := rfl
@[simp] theorem State.raiseFault_mode (c : ErrCode) (w : Word) : (s.raiseFault c w).mode = s.mode := rfl
@[simp] theorem State.raiseFault_fst (c : ErrCode) (w : Word) : (s.raiseFault c w).fst = s.fst := rfl
@[simp] theorem State.raiseFault_blen (c : ErrCode) (w : Word) : (s.raiseFault c w).blen = s.blen := rfl
@[simp] theorem State.raiseFault_slen (c : ErrCode) (w : Word) : (s.raiseFault c w).slen = s.slen := rfl
@[simp] theorem State.raiseFault_plen (c : ErrCode) (w : Word) : (s.raiseFault c w).plen = s.plen := rfl
@[simp] theorem State.raiseFault_ylen (c : ErrCode) (w : Word) : (s.raiseFault c w).ylen = s.ylen := rfl
@[simp] theorem State.raiseFault_err (c : ErrCode) (w : Word) : (s.raiseFault c w).err = c := rfl
@[simp] theorem State.raiseFault_fcmd (c : ErrCode) (w : Word) : (s.raiseFault c w).fcmd = w := rfl
@[simp] theorem State.raiseFault_cp (c : ErrCode) (w : Word) : (s.raiseFault c w).cp = s.cp := rfl
@[simp] theorem State.raiseFault_bit (c : ErrCode) (w : Word) : (s.raiseFault c w).bit = s.bit := rfl
@[simp] theorem State.raiseFault_sym (c : ErrCode) (w : Word) : (s.raiseFault c w).sym = s.sym := rfl
@[simp] theorem State.raiseFault_pls (c : ErrCode) (w : Word) : (s.raiseFault c w).pls = s.pls := rfl
@[simp] theorem State.raiseFault_smp (c : ErrCode) (w : Word) : (s.raiseFault c w).smp = s.smp := rfl
@[simp] theorem State.raiseFault_script (c : ErrCode) (w : Word) : (s.raiseFault c w).script = s.script := rfl
@[simp] theorem State.raiseFault_transcript (c : ErrCode) (w : Word) : (s.raiseFault c w).transcript = s.transcript := rfl
@[simp] theorem State.raiseFault_readBit (c : ErrCode) (w : Word) (i : Nat) :
    (s.raiseFault c w).readBit i = s.readBit i := rfl
@[simp] theorem State.raiseFault_readSym (c : ErrCode) (w : Word) (i : Nat) :
    (s.raiseFault c w).readSym i = s.readSym i := rfl
@[simp] theorem State.raiseFault_readPls (c : ErrCode) (w : Word) (i : Nat) :
    (s.raiseFault c w).readPls i = s.readPls i := rfl
@[simp] theorem State.raiseFault_readSmp (c : ErrCode) (w : Word) (i : Nat) :
    (s.raiseFault c w).readSmp i = s.readSmp i := rfl

/-! ### resetRegisters -/

@[simp] theorem State.resetRegisters_cfg : (s.resetRegisters).cfg = s.cfg := rfl
@[simp] theorem State.resetRegisters_mode : (s.resetRegisters).mode = .bpsk := rfl
@[simp] theorem State.resetRegisters_fst : (s.resetRegisters).fst = 0 := rfl
@[simp] theorem State.resetRegisters_blen : (s.resetRegisters).blen = 0 := rfl
@[simp] theorem State.resetRegisters_slen : (s.resetRegisters).slen = 0 := rfl
@[simp] theorem State.resetRegisters_plen : (s.resetRegisters).plen = 0 := rfl
@[simp] theorem State.resetRegisters_ylen : (s.resetRegisters).ylen = 0 := rfl
@[simp] theorem State.resetRegisters_err : (s.resetRegisters).err = .none := rfl
@[simp] theorem State.resetRegisters_fcmd : (s.resetRegisters).fcmd = 0 := rfl
@[simp] theorem State.resetRegisters_cp : (s.resetRegisters).cp = 0 := rfl
@[simp] theorem State.resetRegisters_bit : (s.resetRegisters).bit = s.bit := rfl
@[simp] theorem State.resetRegisters_sym : (s.resetRegisters).sym = s.sym := rfl
@[simp] theorem State.resetRegisters_pls : (s.resetRegisters).pls = s.pls := rfl
@[simp] theorem State.resetRegisters_smp : (s.resetRegisters).smp = s.smp := rfl
@[simp] theorem State.resetRegisters_script : (s.resetRegisters).script = s.script := rfl
@[simp] theorem State.resetRegisters_transcript : (s.resetRegisters).transcript = s.transcript := rfl
@[simp] theorem State.resetRegisters_readBit (i : Nat) :
    (s.resetRegisters).readBit i = s.readBit i := rfl
@[simp] theorem State.resetRegisters_readSym (i : Nat) :
    (s.resetRegisters).readSym i = s.readSym i := rfl
@[simp] theorem State.resetRegisters_readPls (i : Nat) :
    (s.resetRegisters).readPls i = s.readPls i := rfl
@[simp] theorem State.resetRegisters_readSmp (i : Nat) :
    (s.resetRegisters).readSmp i = s.readSmp i := rfl

/-! ### Reads of a memory just replaced -/

theorem State.setBit_readBit (m : Memory (BitVec 1)) (i : Nat) :
    (s.setBit m).readBit i = (m.read i).getD (Config.launchBit m.epoch i) := rfl
theorem State.setSym_readSym (m : Memory Cx) (i : Nat) :
    (s.setSym m).readSym i = (m.read i).getD (pairValue (Config.launchSym s.cfg.w m.epoch i)) := rfl
theorem State.setPls_readPls (m : Memory Cx) (i : Nat) :
    (s.setPls m).readPls i = (m.read i).getD (pairValue (Config.launchPls s.cfg.w m.epoch i)) := rfl
theorem State.setSmp_readSmp (m : Memory Cx) (i : Nat) :
    (s.setSmp m).readSmp i = (m.read i).getD (pairValue (Config.launchSmp s.cfg.wy m.epoch i)) := rfl

end Sys2Proof.Machine
end

