-- ==== Sys2Proof/Laws/Ops.lean ====
section
/-! SUPPORT. One lemma per shared operation: what each of the operations the meanings use can do. -/

namespace Sys2Proof

/-! ### Modes -/

/-- A 3-bit number is a mode's or it is 7. -/
theorem modeOfNum_cases (m : BitVec 3) :
    (∃ md, modeOfNum m = some md ∧ md.num = m) ∨ (modeOfNum m = none ∧ m = 7) := by
  revert m; decide

@[simp] theorem modeOfNum_num (md : Mode) : modeOfNum md.num = some md := by cases md <;> rfl

theorem Mode.k_pos (md : Mode) : 0 < md.k := by cases md <;> decide

theorem Mode.k_le (md : Mode) : md.k ≤ 6 := by cases md <;> decide

theorem Mode.size_pos (md : Mode) : 0 < md.size := by cases md <;> decide

/-- A key of the mode addresses a CROM cell (rule R54). -/
theorem Mode.cell_lt (md : Mode) {n : Nat} (h : n < md.size) : md.tbase + n < cromCells := by
  have e : md.tbase + md.size ≤ cromCells := by cases md <;> decide
  omega

/-! ### The constellation ROM -/

/-- The symbol of a key is an entry of CROM, hence in range (rules R101, R104). -/
theorem Config.cromAt_fits (c : Config) (m : Mode) {n : Nat} (h : n < m.size) :
    (c.cromAt m n).Fits c.w := by
  have hlen : m.tbase + n < c.crom.length := by
    rw [c.legal.total]; exact m.cell_lt h
  refine c.legal.range _ ?_
  unfold Params.cromAt Params.cromCell
  rw [List.getD_eq_getElem _ _ hlen]
  exact List.getElem_mem hlen

/-- Distinct keys of a mode have distinct symbols (rule R102). -/
theorem Config.cromAt_inj (c : Config) (m : Mode) {a b : Nat} (ha : a < m.size) (hb : b < m.size)
    (h : c.cromAt m a = c.cromAt m b) : a = b := c.legal.injective m a ha b hb h

/-! ### Signed values -/

theorem toInt_fits {n : Nat} (hn : 0 < n) (v : BitVec n) : FitsSigned n v.toInt := by
  have h1 := BitVec.le_two_mul_toInt (x := v)
  have h2 := BitVec.two_mul_toInt_lt (x := v)
  have e : (2 : Int) ^ n = 2 * ((2 ^ (n - 1) : Nat) : Int) := by
    obtain ⟨m, rfl⟩ := Nat.exists_eq_succ_of_ne_zero hn.ne'
    push_cast
    rw [pow_succ]
    exact mul_comm _ _
  constructor <;> omega

end Sys2Proof

namespace Sys2Proof.Machine

/-- A free value is in range (rule R187). -/
theorem pairValue_fits {n : Nat} (hn : 0 < n) (v : BitVec n × BitVec n) : (pairValue v).Fits n :=
  ⟨toInt_fits hn v.1, toInt_fits hn v.2⟩

/-! ### Bit groups and keys -/

@[simp] theorem bitsOfKey_length (k n : Nat) : (bitsOfKey k n).length = k := by simp [bitsOfKey]

@[simp] theorem State.bitGroup_length (s : State) (g : Nat) :
    (s.bitGroup g).length = s.mode.k := by simp [State.bitGroup]

theorem keyFrom_append (bits : List (BitVec 1)) (b : BitVec 1) :
    keyFrom (bits ++ [b]) = 2 * keyFrom bits + b.toNat := by simp [keyFrom]

/-- A key of `length` bits is below 2^length (rule R110, corner cases). -/
theorem keyFrom_lt (bits : List (BitVec 1)) : keyFrom bits < 2 ^ bits.length := by
  induction bits using List.reverseRecOn with
  | nil => decide
  | append_singleton bits b ih =>
    rw [keyFrom_append, List.length_append, List.length_singleton, pow_succ]
    have := b.isLt
    omega

/-- The key of a group is a key of the mode. -/
theorem State.key_lt (s : State) (g : Nat) : keyFrom (s.bitGroup g) < s.mode.size := by
  have := keyFrom_lt (s.bitGroup g)
  rwa [State.bitGroup_length] at this

/-! ### Result sequences -/

@[simp] theorem State.mappedSymbols_length (s : State) (n : Nat) :
    (s.mappedSymbols n).length = n := by simp [State.mappedSymbols]

@[simp] theorem State.shapedSamples_length (s : State) (y : Nat) :
    (s.shapedSamples y).length = y := by simp [State.shapedSamples]

@[simp] theorem State.demappedBits_length (s : State) (n : Nat) :
    (s.demappedBits n).length = n * s.mode.k := by
  simp [State.demappedBits, State.bitsOfSymbol, List.length_flatMap]

theorem State.mappedSymbols_getElem? (s : State) {n g : Nat} (h : g < n) :
    (s.mappedSymbols n)[g]? = some (s.symbolOfGroup g) := by
  simp [State.mappedSymbols, h]

theorem State.shapedSamples_getElem? (s : State) {y m : Nat} (h : m < y) :
    (s.shapedSamples y)[m]? = some (s.sample m) := by
  simp [State.shapedSamples, h]

/-! ### Faults -/

/-- A command that raises a fault answers a next state (rule R165). -/
theorem raise_eq (c : ErrCode) (i : Instr) (s : State) :
    raise c i s = .next { s with err := c, fcmd := encode i } := rfl

/-! ### The output a reset during a command leaves unspecified -/

/-- Forgetting an output changes no field but the memory of that command's output (rule R186). -/
theorem State.forgetOutput_cases (s : State) (i : Instr) :
    s.forgetOutput i = s ∨ s.forgetOutput i = s.setSym s.sym.forget ∨
      s.forgetOutput i = s.setBit s.bit.forget ∨ s.forgetOutput i = s.setSmp s.smp.forget := by
  cases i <;> simp [State.forgetOutput]

end Sys2Proof.Machine
end

