-- ==== Sys2Proof/Laws/PerInstr.lean ====
section
/-! SUPPORT. Statements about every constructor of `Instr`, one lemma per constructor. The family
OpcodeRow: the encoded word fits the instruction's row of the opcode table
(spec 30_encoding.md rule R73). -/

namespace Sys2Proof.Laws.OpcodeRow

/-- The word of the instruction fits its row: (w & mask) == match (rule R73). -/
def Statement (i : Instr) : Prop := i.row.fits (encode i) = true

theorem setmode (m : BitVec 3) : Statement (.setmode m) := by
  revert m; unfold Statement; decide

theorem setfst (n : BitVec 16) : Statement (.setfst n) := by
  show ((0x02#8 ++ 0#8 ++ n) &&& (0xFFFF#16 ++ 0#16) == (0x0200#16 ++ 0#16)) = true
  rw [BitVec.and_append]
  simp

theorem setblen (n : BitVec 24) : Statement (.setblen n) := by
  show ((0x03#8 ++ n) &&& (0xFF#8 ++ 0#24) == (0x03#8 ++ 0#24)) = true
  rw [BitVec.and_append]
  simp

theorem setslen (n : BitVec 24) : Statement (.setslen n) := by
  show ((0x04#8 ++ n) &&& (0xFF#8 ++ 0#24) == (0x04#8 ++ 0#24)) = true
  rw [BitVec.and_append]
  simp

theorem setplen (n : BitVec 24) : Statement (.setplen n) := by
  show ((0x05#8 ++ n) &&& (0xFF#8 ++ 0#24) == (0x05#8 ++ 0#24)) = true
  rw [BitVec.and_append]
  simp

theorem map : Statement .map := by unfold Statement; decide

theorem demap : Statement .demap := by unfold Statement; decide

theorem shape : Statement .shape := by unfold Statement; decide

end Sys2Proof.Laws.OpcodeRow
end

