-- ==== Sys2Proof/Laws/Step.lean ====
section
/-! SUPPORT. What one step can do: the inversion lemmas of `exec`, of `issue` and of `step`. -/

namespace Sys2Proof.Machine

/-- Everything a command does to the status registers: it raises one fault, or it completes, leaves
ERR and FCMD alone and advances CP by one; it never touches the configuration or the host's side. -/
theorem exec_cases (i : Instr) (s : State) :
    (∃ c, c ≠ ErrCode.none ∧ exec i s = raise c i s) ∨
    ∃ t, exec i s = .next t ∧ t.err = s.err ∧ t.fcmd = s.fcmd ∧ t.cp = s.cp + 1 ∧
      t.cfg = s.cfg ∧ t.script = s.script ∧ t.transcript = s.transcript := by
  cases i with
  | setmode m =>
    simp only [exec, execSetmode]
    split
    · exact .inl ⟨_, by decide, rfl⟩
    · exact .inr ⟨_, rfl, rfl, rfl, rfl, rfl, rfl, rfl⟩
  | setfst n => exact .inr ⟨_, rfl, rfl, rfl, rfl, rfl, rfl, rfl⟩
  | setblen n =>
    simp only [exec, execSetblen]
    split
    · exact .inl ⟨_, by decide, rfl⟩
    · exact .inr ⟨_, rfl, rfl, rfl, rfl, rfl, rfl, rfl⟩
  | setslen n =>
    simp only [exec, execSetslen]
    split
    · exact .inl ⟨_, by decide, rfl⟩
    · exact .inr ⟨_, rfl, rfl, rfl, rfl, rfl, rfl, rfl⟩
  | setplen n =>
    simp only [exec, execSetplen]
    split
    · exact .inl ⟨_, by decide, rfl⟩
    · exact .inr ⟨_, rfl, rfl, rfl, rfl, rfl, rfl, rfl⟩
  | map =>
    simp only [exec, execMap]
    split
    · exact .inl ⟨_, by decide, rfl⟩
    · split
      · exact .inl ⟨_, by decide, rfl⟩
      · exact .inr ⟨_, rfl, rfl, rfl, rfl, rfl, rfl, rfl⟩
  | demap =>
    simp only [exec, execDemap]
    split
    · exact .inl ⟨_, by decide, rfl⟩
    · exact .inr ⟨_, rfl, rfl, rfl, rfl, rfl, rfl, rfl⟩
  | shape =>
    simp only [exec, execShape]
    split
    · exact .inl ⟨_, by decide, rfl⟩
    · split
      · exact .inl ⟨_, by decide, rfl⟩
      · exact .inr ⟨_, rfl, rfl, rfl, rfl, rfl, rfl, rfl⟩

/-- Every command answers a next state: it completes or faults, and never hangs (rule R197). -/
theorem exec_answers (i : Instr) (s : State) : ∃ t, exec i s = .next t := by
  rcases exec_cases i s with ⟨c, -, h⟩ | ⟨t, h, -⟩
  · exact ⟨_, h⟩
  · exact ⟨t, h⟩

/-- A step with a move left takes it on the state that has it no longer. -/
theorem step_cons {s : State} {mv : HostMove} {rest : List HostMove} (h : s.script = mv :: rest) :
    step s = takeMove mv (s.setScript rest) := by
  simp only [step, nextMove, h]

/-- A step with no move left holds the state. -/
theorem step_nil {s : State} (h : s.script = []) : step s = .next s := by
  simp only [step, nextMove, h]

theorem issue_faulted {w : Word} {s : State} (h : s.err ≠ .none) : issue w s = .next s := if_neg h

theorem issue_ok {w : Word} {s : State} {i : Instr} (h : s.err = .none) (hd : decode w = .ok i) :
    issue w s = exec i s := by
  simp only [issue, if_pos h, hd]

theorem issue_illegal {w : Word} {s : State} {e : Illegal} (h : s.err = .none)
    (hd : decode w = .error e) : issue w s = .next (s.raiseFault .illegalCommand w) := by
  simp only [issue, if_pos h, hd]

/-- Everything the issue of a word can do: the word is not taken, is no command, or is run. -/
theorem issue_cases (w : Word) (s : State) :
    (s.err ≠ .none ∧ issue w s = .next s) ∨
    (s.err = .none ∧ ∃ e, decode w = .error e ∧
      issue w s = .next (s.raiseFault .illegalCommand w)) ∨
    (s.err = .none ∧ ∃ i, decode w = .ok i ∧ issue w s = exec i s) := by
  by_cases h : s.err = .none
  · cases hd : decode w with
    | ok i => exact .inr (.inr ⟨h, i, rfl, issue_ok h hd⟩)
    | error e => exact .inr (.inl ⟨h, e, rfl, issue_illegal h hd⟩)
  · exact .inl ⟨h, issue_faulted h⟩

/-- Everything a reset during a command can do. -/
theorem resetDuring_cases (w : Word) (s : State) :
    resetDuring w s = .next s.resetRegisters ∨
    ∃ i, s.err = .none ∧ decode w = .ok i ∧
      resetDuring w s = .next (s.forgetOutput i).resetRegisters := by
  by_cases h : s.err = .none
  · cases hd : decode w with
    | ok i => exact .inr ⟨i, h, rfl, by simp only [resetDuring, if_pos h, hd]⟩
    | error e => exact .inl (by simp only [resetDuring, if_pos h, hd])
  · exact .inl (if_neg h)

end Sys2Proof.Machine
end

