-- ==== Sys2Proof/Tests/Slice0.lean ====
section
/-! SUPPORT. The model's own tests, with results from spec/95_test_vectors.md and the rules' worked
examples, and for each statement with hypotheses a witness that meets them. -/

namespace Sys2Proof.Tests

open Sys2Proof.Machine

/-! ### Helpers -/

/-- The outcome is a next state with property `p`. -/
def nextIs (o : Host.Outcome State Fault Refusal) (p : State → Bool) : Bool :=
  match o with
  | .next t => p t
  | .fault _ => false
  | .refused _ => false

/-- The reset state with host moves to come. -/
def withMoves (ms : List HostMove) : State := { State.reset with script := ms }

/-- A faulted state (95_test_vectors.md 2.6) with host moves to come. -/
def faultedWithMoves (ms : List HostMove) : State :=
  { State.reset with mode := .pam8, blen := 4, err := .invalidInput, fcmd := 0x10000000#32, cp := 2,
                     script := ms }

/-- A memory whose first cells hold the given values. -/
def filled {α : Type} (vs : List α) : Memory α := ⟨numberFrom 0 vs, 0⟩

/-- The start of program P1: twelve bits 0b001111011100, QAM16. -/
def mapState : State :=
  { State.reset with mode := .qam16, blen := 12, bit := filled [0, 0, 1, 1, 1, 1, 0, 1, 1, 1, 0, 0] }

/-- The symbols of program P5. -/
def demapState : State :=
  { State.reset with mode := .qam16, slen := 3,
                     sym := filled [⟨0, 0⟩, ⟨-8192, 0⟩, ⟨5000, -9000⟩] }

/-- The third row of 95_test_vectors.md 2.5: complex symbols and pulse, FST = 1. -/
def shapeState : State :=
  { State.reset with fst := 1, slen := 2, plen := 3, sym := filled [⟨1, 2⟩, ⟨3, -4⟩],
                     pls := filled [⟨1, 1⟩, ⟨0, -2⟩, ⟨5, 0⟩] }

/-- Real symbols and a real pulse no longer than FST. -/
def shortPulseState : State :=
  { State.reset with fst := 3, slen := 2, plen := 2, sym := filled [⟨1, 0⟩, ⟨2, 0⟩],
                     pls := filled [⟨5, 0⟩, ⟨7, 0⟩] }

/-- The smaller configuration of 95_test_vectors.md 2.4: BCAP = 100. -/
def smallParams : Params := { defaultParams with bcap := 100 }

theorem smallParams_legal : smallParams.Legal where
  width := defaultParams_legal.width
  sampleWidth := defaultParams_legal.sampleWidth
  bitCells := by decide
  symCells := defaultParams_legal.symCells
  plsCells := defaultParams_legal.plsCells
  smpCells := defaultParams_legal.smpCells
  total := defaultParams_legal.total
  range := defaultParams_legal.range
  injective := defaultParams_legal.injective

def smallState : State :=
  { State.reset with cfg := ⟨smallParams, smallParams_legal⟩, mode := .qam64, slen := 17 }

/-! ### Well-formedness and decoding -/

/-- The one check: SETMODE 7 is refused (rule R75, case 4). -/
theorem test_wf_refuses_setmode_seven : (Instr.setmode 7).wf = false := by decide

/-- The word bit by bit from rule R73: opcode 00000001, 21 zeros, mmm = 110. -/
theorem test_decode_setmode : decode 0b00000001000000000000000000000110#32 = .ok (.setmode 6) := by rfl

theorem test_decode_setfst : decode 0b00000010000000001111111111111111#32 = .ok (.setfst 65535) := by rfl

theorem test_decode_setblen : decode 0b00000011000000000000000000001100#32 = .ok (.setblen 12) := by rfl

theorem test_decode_setslen : decode 0b00000100000000000001000000000000#32 = .ok (.setslen 4096) := by rfl

theorem test_decode_setplen : decode 0b00000101000000000000000100000000#32 = .ok (.setplen 256) := by rfl

theorem test_decode_map : decode 0b00010000000000000000000000000000#32 = .ok .map := by rfl

theorem test_decode_demap : decode 0b00010001000000000000000000000000#32 = .ok .demap := by rfl

theorem test_decode_shape : decode 0b00010010000000000000000000000000#32 = .ok .shape := by rfl

/-- 95_test_vectors.md 2.1: one word for each case of rule R75. -/
theorem test_decode_illegal :
    decode 0x13000000#32 = .error .unknownOp ∧ decode 0x11FFFFFF#32 = .error .operandBits ∧
    decode 0x01800000#32 = .error .setmodeReserved ∧ decode 0x01000007#32 = .error .setmodeSeven ∧
    decode 0x02010000#32 = .error .setfstReserved := ⟨rfl, rfl, rfl, rfl, rfl⟩

/-- The opcode table's words, placed and decoded. -/
theorem test_table_word :
    decodeTableWord 32 0x01000000 = some (.setmode 0) ∧ decodeTableWord 32 0x01000007 = none ∧
    decodeTableWord 33 0x10000000 = none := by decide

/-- Rule R77: an operand in hexadecimal, a comment, a blank line, an operand too wide. -/
theorem test_assembler :
    assembleLine "SETBLEN 0x0C  ; twelve".toList = .command (.setblen 12) ∧
    assembleLine "   ; nothing".toList = .blank ∧
    assembleLine "SETFST 65536".toList = .malformed := by decide

/-! ### The default tables (rule R105) -/

/-- The Gray-to-binary index of a bit vector (rule R105). -/
def gray : Nat → Nat → List Nat → Nat
  | _, acc, [] => acc
  | prev, acc, b :: bs => gray ((prev + b) % 2) (2 * acc + (prev + b) % 2) bs

/-- Bit i of a K-bit key, most significant first. -/
def keyBit (k n i : Nat) : Nat := n / 2 ^ (k - 1 - i) % 2

/-- The listed QAM64 table is the formula's (rule R105). -/
theorem test_qam64_table :
    (List.range 64).map (defaultParams.cromAt .qam64) = (List.range 64).map fun n =>
      (⟨(2 * gray 0 0 [keyBit 6 n 0, keyBit 6 n 1, keyBit 6 n 2] - 7) * 2048,
        (2 * gray 0 0 [keyBit 6 n 3, keyBit 6 n 4, keyBit 6 n 5] - 7) * 2048⟩ : Cx) := by
  decide +kernel

/-- The listed QAM16 table is the formula's (rule R105). -/
theorem test_qam16_table :
    (List.range 16).map (defaultParams.cromAt .qam16) = (List.range 16).map fun n =>
      (⟨(2 * gray 0 0 [keyBit 4 n 0, keyBit 4 n 1] - 3) * 4096,
        (2 * gray 0 0 [keyBit 4 n 2, keyBit 4 n 3] - 3) * 4096⟩ : Cx) := by
  decide +kernel

/-- The listed PAM8 table is the formula's (rule R105). -/
theorem test_pam8_table :
    (List.range 8).map (defaultParams.cromAt .pam8) = (List.range 8).map fun n =>
      (⟨(2 * gray 0 0 [keyBit 3 n 0, keyBit 3 n 1, keyBit 3 n 2] - 7) * 2048, 0⟩ : Cx) := by
  decide +kernel

/-- CROM cells at the table boundaries of rule R55. -/
theorem test_crom_layout :
    defaultParams.cromCell 86 = ⟨-12288, 0⟩ ∧ defaultParams.cromCell 98 = ⟨16384, 0⟩ ∧
    defaultParams.cromCell 105 = ⟨-11585, -11585⟩ := by decide

/-! ### Commands (95_test_vectors.md 2.2 to 2.6) -/

theorem test_setmode :
    nextIs (exec (.setmode 3) State.reset) (fun t => t.mode == .qam64 && t.cp == 1) = true := by decide

theorem test_setmode_seven :
    nextIs (exec (.setmode 7) State.reset)
      (fun t => t.err.num == 3 && t.fcmd == 0x01000007 && t.cp == 0 && t.mode == .bpsk) = true := by
  decide

theorem test_setfst :
    nextIs (exec (.setfst 8) State.reset) (fun t => t.fst == 8 && t.cp == 1) = true := by decide

theorem test_setblen_at_capacity :
    nextIs (exec (.setblen 24576) State.reset) (fun t => t.blen == 24576 && t.cp == 1) = true := by
  decide

theorem test_setblen_over_capacity :
    nextIs (exec (.setblen 24577) State.reset)
      (fun t => t.err.num == 4 && t.fcmd == 0x03006001 && t.blen == 0) = true := by decide

theorem test_setslen_over_capacity :
    nextIs (exec (.setslen 4097) State.reset)
      (fun t => t.err.num == 4 && t.fcmd == 0x04001001 && t.cp == 0) = true := by decide

theorem test_setplen_over_capacity :
    nextIs (exec (.setplen 257) State.reset)
      (fun t => t.err.num == 4 && t.fcmd == 0x05000101 && t.cp == 0) = true := by decide

/-- The example of rule R110: keys 3, 13, 12. -/
theorem test_map_qam16 :
    nextIs (exec .map mapState) (fun t => t.slen == 3 && t.readSym 0 == ⟨-12288, 4096⟩ &&
      t.readSym 1 == ⟨4096, -4096⟩ && t.readSym 2 == ⟨4096, -12288⟩) = true := by decide

/-- BLEN = 4, PAM8: 4 mod 3 is not 0. -/
theorem test_map_invalid_input :
    nextIs (exec .map { mapState with mode := .pam8, blen := 4 })
      (fun t => t.err.num == 1 && t.fcmd == 0x10000000 && t.slen == 0) = true := by decide

/-- Program P5: keys 5 and 1 win their ties, then key 12. -/
theorem test_demap_ties :
    nextIs (exec .demap demapState) (fun t => t.blen == 12 &&
      (List.range 12).map t.readBit == [0, 1, 0, 1, 0, 0, 0, 1, 1, 1, 0, 0]) = true := by decide

/-- BCAP = 100, QAM64, 17 symbols: 102 > 100. -/
theorem test_demap_capacity :
    nextIs (exec .demap smallState)
      (fun t => t.err.num == 4 && t.fcmd == 0x11000000 && t.blen == 0) = true := by decide

theorem test_shape_complex :
    nextIs (exec .shape shapeState) (fun t => t.ylen == 4 &&
      (List.range 4).map t.readSmp == [⟨-1, 3⟩, ⟨11, -3⟩, ⟨-3, 4⟩, ⟨15, -20⟩]) = true := by decide

/-- Extreme values: the imaginary part is 2^31. -/
theorem test_shape_extreme :
    nextIs (exec .shape { shapeState with slen := 1, plen := 1, sym := filled [⟨-32768, -32768⟩],
                                          pls := filled [⟨-32768, -32768⟩] })
      (fun t => t.ylen == 1 && t.readSmp 0 == ⟨0, 2147483648⟩) = true := by decide

/-! ### Host moves -/

/-- A word offered while faulted is not taken (95_test_vectors.md 2.6). -/
theorem test_faulted_word_not_taken :
    nextIs (step (faultedWithMoves [.issue 0x03000003#32]))
      (fun t => t.err.num == 1 && t.fcmd == 0x10000000 && t.cp == 2 && t.blen == 4) = true := by decide

/-- Reset clears the registers and keeps the bits (program P4). -/
theorem test_reset_keeps_bits :
    nextIs (step { faultedWithMoves [.reset] with bit := filled [1, 1, 0, 1] })
      (fun t => t.err == .none && t.blen == 0 && t.cp == 0 &&
        (List.range 4).map t.readBit == [1, 1, 0, 1]) = true := by decide

theorem test_write_then_read :
    nextIs (Host.Core.run core 2 (withMoves [.writePls 1 ⟨8192, 0⟩, .readCell .pls 1]))
      (fun t => t.transcript == [.pair ⟨8192, 0⟩]) = true := by decide

/-- The first step after reset runs a placed word: SHAPE faults InvalidInput (rule R188). -/
theorem test_placed_shape :
    nextIs (step (State.reset.withFetchWord 32 0x12000000)) (fun t => t.err.num == 1) = true := by
  decide

/-! ### Witnesses: for each statement with hypotheses, values that meet all of them -/

theorem witness_DecodeInvertsEncode : (Instr.setmode 6).wf = true ∧ (Instr.setfst 65535).wf = true := by
  decide

theorem witness_EncodeInvertsDecode : decode 0x03FFFFFF#32 = .ok (.setblen 16777215) := by rfl

theorem witness_EveryWordMatchesOneRowOrIsIllegal :
    decode 0x01000006#32 = .ok (.setmode 6) ∧
    (Instr.setmode 1).row.fits 0x01000007#32 = true ∧ (Instr.setmode 2).row.fits 0x01000007#32 = true :=
  ⟨rfl, by decide, by decide⟩

/-- One word at the boundary of each of the five cases. -/
theorem witness_IllegalWordsFaultIllegalCommand :
    (withMoves [.issue 0x06000000#32]).Idle ∧ IsIllegalWord 0x06000000#32 ∧
    IsIllegalWord 0x10000001#32 ∧ IsIllegalWord 0x01000008#32 ∧ IsIllegalWord 0x01000007#32 ∧
    IsIllegalWord 0x02010000#32 :=
  ⟨by decide, by decide, by decide, by decide, by decide, by decide⟩

theorem witness_StepRunsTheDecodedCommand :
    (withMoves [.issue 0x0200FFFF#32]).script = [.issue 0x0200FFFF#32] ∧
    (withMoves [.issue 0x0200FFFF#32]).Idle ∧ decode 0x0200FFFF#32 = .ok (.setfst 65535) :=
  ⟨rfl, rfl, rfl⟩

theorem witness_PlacedWordRunsNext :
    State.reset.Idle ∧ decodeTableWord 32 0x03FFFFFF = some (.setblen 16777215) := by decide

/-- An issued word, a legal write, a read, a register read and a reset on a faulted block. -/
theorem witness_FaultedBlockTakesNoCommand :
    (faultedWithMoves [.issue 0x10000000#32]).Faulted ∧
    (∃ t, step (faultedWithMoves [.writeBit 0 1]) = .next t) ∧
    HostMove.isReset (.writeBit 0 1) = false ∧
    HostMove.IsLegalWrite defaultConfig (.writeSym 4095 ⟨-32768, 32767⟩) ∧
    (105 < Space.crom.cells defaultConfig) ∧ HostMove.isReset .reset = true :=
  ⟨by decide, ⟨_, rfl⟩, rfl, by unfold HostMove.IsLegalWrite; decide, by decide, rfl⟩

theorem witness_FaultsArePrecise :
    (withMoves [.issue 0x12000000#32]).Idle ∧
    ∃ t, step (withMoves [.issue 0x12000000#32]) = .next t ∧ t.Faulted := ⟨rfl, _, rfl, by decide⟩

/-- Both outcomes: a command that completes and one that faults. -/
theorem witness_CpCountsCompletedCommands :
    State.reset.Idle ∧ (∃ t, exec .map State.reset = .next t ∧ t.Idle) ∧
    ∃ t, exec .shape State.reset = .next t ∧ t.Faulted :=
  ⟨rfl, ⟨_, rfl, rfl⟩, ⟨_, rfl, by decide⟩⟩

/-- One command for each fault. -/
theorem witness_FaultMatrix :
    (∃ t, exec (.setmode 7) State.reset = .next t ∧ t.err = .illegalCommand) ∧
    (∃ t, exec .shape State.reset = .next t ∧ t.err = .invalidInput) ∧
    (∃ t, exec (.setplen 257) State.reset = .next t ∧ t.err = .capacity) :=
  ⟨⟨_, rfl, rfl⟩, ⟨_, rfl, rfl⟩, ⟨_, rfl, rfl⟩⟩

theorem witness_OnlyTheNamedCommandsWrite :
    (∃ t, exec .map mapState = .next t) ∧ (∃ t, exec .demap demapState = .next t) ∧
    (∀ m, Instr.map ≠ .setmode m) ∧ Instr.map ≠ .demap ∧ Instr.demap ≠ .map :=
  ⟨⟨_, rfl⟩, ⟨_, rfl⟩, by decide, by decide, by decide⟩

/-- Reserved bits at both ends of word[23:3], and m = 7. -/
theorem witness_SetmodeSelectsTheConstellation :
    (withMoves [.issue 0x01000008#32]).Idle ∧ (0x01000008#32).toNat / 2 ^ 24 = 0x01 ∧
    (0x01000008#32).toNat % 2 ^ 24 / 2 ^ 3 ≠ 0 ∧ (0x01800000#32).toNat % 2 ^ 24 / 2 ^ 3 ≠ 0 ∧
    (0x01000007#32).toNat % 2 ^ 3 = 7 := by decide

theorem witness_SetfstSetsTheSymbolPeriod :
    (withMoves [.issue 0x02010000#32]).Idle ∧ (0x02010000#32).toNat / 2 ^ 24 = 0x02 ∧
    (0x02010000#32).toNat % 2 ^ 24 / 2 ^ 16 ≠ 0 := by decide

/-- n = BCAP and n = BCAP + 1. -/
theorem witness_SetblenDeclaresTheBitLength :
    (24576#24).toNat ≤ State.reset.cfg.bcap ∧ State.reset.cfg.bcap < (24577#24).toNat := by decide

/-- n = SCAP and n = SCAP + 1. -/
theorem witness_SetslenDeclaresTheSymbolLength :
    (4096#24).toNat ≤ State.reset.cfg.scap ∧ State.reset.cfg.scap < (4097#24).toNat := by decide

/-- n = PCAP and n = PCAP + 1. -/
theorem witness_SetplenDeclaresThePulseLength :
    (256#24).toNat ≤ State.reset.cfg.pcap ∧ State.reset.cfg.pcap < (257#24).toNat := by decide

/-- SETMODE 2 and SETBLEN 24576 for the first clause, SETBLEN 5 and SETBLEN 3 for the second
(95_test_vectors.md 2.2), SETBLEN 5 for the third. -/
theorem witness_ConfigCommandsCommute :
    isConfigCommand (.setmode 2) = true ∧ isConfigCommand (.setblen 24576) = true ∧
    (Instr.setmode 2).row ≠ (Instr.setblen 24576).row ∧ State.reset.Idle ∧
    (∃ a b, exec (.setmode 2) State.reset = .next a ∧ a.Idle ∧
      exec (.setblen 24576) a = .next b ∧ b.Idle) ∧
    (Instr.setblen 5).row = (Instr.setblen 3).row ∧
    (∃ a b, exec (.setblen 5) State.reset = .next a ∧ a.Idle ∧
      exec (.setblen 3) a = .next b ∧ b.Idle) :=
  ⟨rfl, rfl, by decide, rfl, ⟨_, _, rfl, rfl, rfl, rfl⟩, rfl, ⟨_, _, rfl, rfl, rfl, rfl⟩⟩

/-- BLEN/K = SCAP, BLEN no multiple of K, BLEN/K = SCAP + 1, and an operand bit set. -/
theorem witness_MapWritesTheSymbolOfEachGroup :
    (withMoves [.issue 0x10000001#32]).Idle ∧ (0x10000001#32).toNat / 2 ^ 24 = 0x10 ∧
    (0x10000001#32).toNat % 2 ^ 24 ≠ 0 ∧
    (24576#24).toNat % Mode.qam64.k = 0 ∧ (24576#24).toNat / Mode.qam64.k ≤ defaultConfig.scap ∧
    (4#24).toNat % Mode.pam8.k ≠ 0 ∧
    (4097#24).toNat % Mode.bpsk.k = 0 ∧ defaultConfig.scap < (4097#24).toNat / Mode.bpsk.k := by decide

theorem witness_MapSymbolDependsOnItsGroup :
    let s' : State := { mapState with bit := mapState.bit.write 11 1 }
    mapState.Idle ∧ s'.Idle ∧ (∃ t, exec .map mapState = .next t ∧ t.Idle ∧ 1 < t.slen.toNat) ∧
    (∃ t', exec .map s' = .next t') ∧
    (∀ i < mapState.mode.k,
      s'.readBit (1 * mapState.mode.k + i) = mapState.readBit (1 * mapState.mode.k + i)) :=
  ⟨rfl, rfl, ⟨_, rfl, rfl, by decide⟩, ⟨_, rfl⟩, by decide⟩

/-- Twelve bits as the concatenation of four and eight. -/
theorem witness_MapOfConcatenation :
    let a : State := { mapState with blen := 4 }
    let b : State := { mapState with blen := 8, bit := filled [1, 1, 0, 1, 1, 1, 0, 0] }
    a.blen.toNat % mapState.mode.k = 0 ∧ mapState.blen.toNat = a.blen.toNat + b.blen.toNat ∧
    (∀ i < a.blen.toNat, mapState.readBit i = a.readBit i) ∧
    (∀ i < b.blen.toNat, mapState.readBit (a.blen.toNat + i) = b.readBit i) ∧
    mapState.Idle ∧ a.Idle ∧ b.Idle ∧ (∃ t, exec .map mapState = .next t ∧ t.Idle) ∧
    (∃ u, exec .map a = .next u) ∧ (∃ v, exec .map b = .next v) :=
  ⟨by decide, by decide, by decide, by decide, rfl, rfl, rfl, ⟨_, rfl, rfl⟩, ⟨_, rfl⟩, ⟨_, rfl⟩⟩

theorem witness_EmptySequencesComplete :
    mapState.slen = 0 ∧ demapState.blen = 0 := by decide

theorem witness_MapAndShapeRepeat :
    mapState.Idle ∧ (∃ t, exec .map mapState = .next t ∧ t.Idle) ∧
    shapeState.Idle ∧ (∃ t, exec .shape shapeState = .next t ∧ t.Idle) :=
  ⟨rfl, ⟨_, rfl, rfl⟩, rfl, ⟨_, rfl, rfl⟩⟩

/-- The extreme components. -/
theorem witness_DistancesStayInWidth :
    (⟨-32768, -32768⟩ : Cx).Fits defaultConfig.w ∧ (⟨32767, 32767⟩ : Cx).Fits defaultConfig.w := by decide

/-- SLEN*K = BCAP under the default configuration, and 17 symbols of QAM64 with BCAP = 100. -/
theorem witness_DemapWritesTheBitsOfEachDecision :
    (withMoves [.issue 0x11FFFFFF#32]).Idle ∧ (0x11FFFFFF#32).toNat / 2 ^ 24 = 0x11 ∧
    (0x11FFFFFF#32).toNat % 2 ^ 24 ≠ 0 ∧
    (4096#24).toNat * Mode.qam64.k ≤ defaultConfig.bcap ∧
    smallState.cfg.bcap < smallState.slen.toNat * smallState.mode.k := by decide

theorem witness_RealTablesIgnoreTheImaginaryPart :
    ∀ n < Mode.pam8.size, (defaultParams.cromAt .pam8 n).im = 0 := by decide

theorem witness_TableEntryDecidesItsOwnKey : 63 < Mode.qam64.size := by decide

/-- With a host write beyond the mapped symbols between the two commands. -/
theorem witness_DemapInvertsMap :
    mapState.blen.toNat ≤ mapState.cfg.bcap ∧ mapState.Idle ∧
    ∃ t, exec .map mapState = .next t ∧ t.Idle ∧ (t.setSym (t.sym.write 3 ⟨9, 9⟩)).Idle ∧
      ∀ g < t.slen.toNat, (t.setSym (t.sym.write 3 ⟨9, 9⟩)).readSym g = t.readSym g :=
  ⟨by decide, rfl, _, rfl, rfl, rfl, by decide⟩

theorem witness_DemapMapDemapGivesTheSameBits :
    demapState.slen.toNat ≤ demapState.cfg.scap ∧ demapState.Idle ∧
    ∃ t, exec .demap demapState = .next t ∧ t.Idle := ⟨by decide, rfl, _, rfl, rfl⟩

theorem witness_DemapBitsDependOnTheirSymbol :
    let s' : State := { demapState with sym := demapState.sym.write 0 ⟨7, 7⟩ }
    s'.Idle ∧ (∃ t, exec .demap demapState = .next t ∧ t.Idle) ∧ (∃ t', exec .demap s' = .next t') ∧
    1 < demapState.slen.toNat ∧ 3 < demapState.mode.k ∧ s'.readSym 1 = demapState.readSym 1 :=
  ⟨rfl, ⟨_, rfl, rfl⟩, ⟨_, rfl⟩, by decide, by decide, by decide⟩

/-- Y = YCAP, Y = YCAP + 1 (95_test_vectors.md 2.5), and each of the three zero operands. -/
theorem witness_ShapeWritesTheDirectForm :
    ((withMoves [.issue 0x12800000#32]).Idle ∧ (0x12800000#32).toNat / 2 ^ 24 = 0x12 ∧
      (0x12800000#32).toNat % 2 ^ 24 ≠ 0) ∧
    (let s : State := { shapeState with fst := 65535, slen := 2, plen := 1 }
     s.fst ≠ 0 ∧ s.slen ≠ 0 ∧ s.plen ≠ 0 ∧
       (s.slen.toNat - 1) * s.fst.toNat + s.plen.toNat ≤ s.cfg.ycap) ∧
    (let s : State := { shapeState with fst := 65535, slen := 2, plen := 2 }
     s.fst ≠ 0 ∧ s.slen ≠ 0 ∧ s.plen ≠ 0 ∧
       s.cfg.ycap < (s.slen.toNat - 1) * s.fst.toNat + s.plen.toNat) ∧
    ({ shapeState with fst := 0 } : State).fst = 0 ∧ ({ shapeState with slen := 0 } : State).slen = 0 ∧
    ({ shapeState with plen := 0 } : State).plen = 0 := by decide

theorem witness_ShapeIsUpsampleThenConvolve :
    shapeState.Idle ∧ ∃ t, exec .shape shapeState = .next t ∧ t.Idle ∧ 3 < t.ylen.toNat :=
  ⟨rfl, _, rfl, rfl, by decide⟩

theorem witness_ShapeIsThePolyphaseFilter :
    shortPulseState.Idle ∧ ∃ t, exec .shape shortPulseState = .next t ∧ t.Idle ∧ 4 < t.ylen.toNat :=
  ⟨rfl, _, rfl, rfl, by decide⟩

theorem witness_SamplesStayInWidth :
    let s : State := { shapeState with sym := filled [⟨-32768, -32768⟩, ⟨32767, 0⟩],
                                       pls := filled [⟨-32768, -32768⟩, ⟨0, 0⟩, ⟨5, 0⟩] }
    s.fst ≠ 0 ∧ s.plen.toNat ≤ s.cfg.pcap ∧ (∀ k < s.slen.toNat, (s.readSym k).Fits s.cfg.w) ∧
    (∀ j < s.plen.toNat, (s.readPls j).Fits s.cfg.w) := by decide

/-- PLEN < FST, with a gap between the two copies. -/
theorem witness_ShortPulsesDoNotOverlap :
    shortPulseState.Idle ∧ (∃ t, exec .shape shortPulseState = .next t ∧ t.Idle) ∧
    shortPulseState.plen.toNat ≤ shortPulseState.fst.toNat ∧ 0 + 1 < shortPulseState.slen.toNat ∧
    shortPulseState.plen.toNat ≤ 2 ∧ 2 < shortPulseState.fst.toNat :=
  ⟨rfl, ⟨_, rfl, rfl⟩, by decide, by decide, by decide, by decide⟩

/-- Sums of symbols under one pulse, and sums of pulses under one symbol sequence. -/
theorem witness_ShapeIsLinear :
    (let a : State := { shapeState with sym := filled [⟨1, 0⟩, ⟨0, -4⟩] }
     let b : State := { shapeState with sym := filled [⟨0, 2⟩, ⟨3, 0⟩] }
     (∃ t, exec .shape shapeState = .next t ∧ t.Idle) ∧ (∃ u, exec .shape a = .next u ∧ u.Idle) ∧
     (∃ v, exec .shape b = .next v ∧ v.Idle) ∧
     (∀ k < shapeState.slen.toNat, shapeState.readSym k = (a.readSym k).add (b.readSym k)) ∧
     (∀ j < shapeState.plen.toNat, a.readPls j = shapeState.readPls j ∧
       b.readPls j = shapeState.readPls j)) ∧
    (let a : State := { shapeState with pls := filled [⟨1, 0⟩, ⟨0, 0⟩, ⟨4, 0⟩] }
     let b : State := { shapeState with pls := filled [⟨0, 1⟩, ⟨0, -2⟩, ⟨1, 0⟩] }
     (∃ u, exec .shape a = .next u ∧ u.Idle) ∧ (∃ v, exec .shape b = .next v ∧ v.Idle) ∧
     (∀ j < shapeState.plen.toNat, shapeState.readPls j = (a.readPls j).add (b.readPls j)) ∧
     (∀ k < shapeState.slen.toNat, a.readSym k = shapeState.readSym k ∧
       b.readSym k = shapeState.readSym k)) :=
  ⟨⟨⟨_, rfl, rfl⟩, ⟨_, rfl, rfl⟩, ⟨_, rfl, rfl⟩, by decide, by decide⟩,
    ⟨_, rfl, rfl⟩, ⟨_, rfl, rfl⟩, by decide, by decide⟩

theorem witness_ShapeOfPrefixedZeroIsDelayed :
    let a : State := { shapeState with slen := 3, sym := filled [⟨0, 0⟩, ⟨1, 2⟩, ⟨3, -4⟩] }
    a.slen.toNat = shapeState.slen.toNat + 1 ∧ a.readSym 0 = ⟨0, 0⟩ ∧
    (∀ k < shapeState.slen.toNat, a.readSym (k + 1) = shapeState.readSym k) ∧
    (∀ j < shapeState.plen.toNat, a.readPls j = shapeState.readPls j) ∧ a.Idle ∧
    (∃ t, exec .shape shapeState = .next t ∧ t.Idle) ∧ (∃ u, exec .shape a = .next u ∧ u.Idle) :=
  ⟨by decide, by decide, by decide, by decide, rfl, ⟨_, rfl, rfl⟩, ⟨_, rfl, rfl⟩⟩

theorem witness_RealInputsGiveRealSamples :
    shortPulseState.Idle ∧ (∃ t, exec .shape shortPulseState = .next t ∧ t.Idle) ∧
    (∀ k < shortPulseState.slen.toNat, (shortPulseState.readSym k).im = 0) ∧
    (∀ j < shortPulseState.plen.toNat, (shortPulseState.readPls j).im = 0) :=
  ⟨rfl, ⟨_, rfl, rfl⟩, by decide, by decide⟩

/-- Each reference pulse exists at each length the statement tells apart. -/
theorem witness_ReferencePulseEnergies (fsT : Nat) :
    (∃ x, IsRectangularPulse fsT 1 x) ∧ (∃ x, IsHalfSinePulse fsT 1 x) ∧
    (∃ x, IsSineSquaredPulse fsT 1 x) :=
  ⟨⟨_, fun _ _ => rfl⟩, ⟨_, fun _ _ => rfl⟩, ⟨_, fun _ _ => rfl⟩⟩

/-- An order that is not the rising one, over memories with old cells inside and beyond the result,
and each of the three commands completing with a result of at least one cell. -/
theorem witness_CellWriteOrderIsUnobservable :
    (⟨[(1, ⟨9, 9⟩), (4, ⟨8, 8⟩)], 0⟩ : Memory Cx).wf = true ∧
    (⟨[(1, 1), (4, 0)], 0⟩ : Memory (BitVec 1)).wf = true ∧ [2, 0, 1].Perm (List.range 3) ∧
    (mapState.Idle ∧ mapState.sym.wf = true ∧
      ∃ t, exec .map mapState = .next t ∧ t.Idle ∧ 0 < t.slen.toNat) ∧
    (demapState.Idle ∧ demapState.bit.wf = true ∧
      ∃ t, exec .demap demapState = .next t ∧ t.Idle ∧ 0 < t.blen.toNat) ∧
    (shapeState.Idle ∧ shapeState.smp.wf = true ∧
      ∃ t, exec .shape shapeState = .next t ∧ t.Idle ∧ 0 < t.ylen.toNat) :=
  ⟨by decide, by decide, by decide, ⟨rfl, rfl, _, rfl, rfl, by decide⟩,
    ⟨rfl, rfl, _, rfl, rfl, by decide⟩, ⟨rfl, rfl, _, rfl, rfl, by decide⟩⟩

/-- The last cell of each space the host writes, with extreme values. -/
theorem witness_HostWriteChangesOnlyItsCell :
    24575 < defaultConfig.bcap ∧ 4095 < defaultConfig.scap ∧ 255 < defaultConfig.pcap ∧
    (⟨-32768, 32767⟩ : Cx).Fits defaultConfig.w ∧
    HostMove.isWrite (.writeSym 4096 ⟨0, 0⟩) = true ∧ ¬ 4096 < defaultConfig.scap ∧
    (withMoves [.writeSym 4095 ⟨-32768, 32767⟩]).script = [.writeSym 4095 ⟨-32768, 32767⟩] := by decide

/-- The first index outside each space, and the first value outside a cell. -/
theorem witness_AccessesThatDoNotExistStop :
    defaultConfig.bcap ≤ 24576 ∧ defaultConfig.scap ≤ 4096 ∧ defaultConfig.pcap ≤ 256 ∧
    ¬ (⟨32768, 0⟩ : Cx).Fits defaultConfig.w ∧ 0 < defaultConfig.scap ∧ 0 < defaultConfig.pcap ∧
    Space.crom.cells defaultConfig ≤ 106 ∧ Space.smp.cells defaultConfig ≤ 65536 := by decide

/-- A register read, of an idle and of a faulted block, and the last cell of each space. -/
theorem witness_HostReadChangesNothing :
    (withMoves [.readReg .cp]).script = [.readReg .cp] ∧
    (faultedWithMoves [.readReg .err]).script = [.readReg .err] ∧ 105 < Space.crom.cells defaultConfig ∧
    24575 < Space.bit.cells defaultConfig ∧ 4095 < Space.sym.cells defaultConfig ∧
    255 < Space.pls.cells defaultConfig ∧ 65535 < Space.smp.cells defaultConfig := by decide

/-- A state with written cells in every space that meets the invariant. -/
theorem witness_CellsHoldValuesOfTheirDomain :
    ({ shapeState with bit := filled [1, 0], smp := filled [⟨0, 2147483648⟩], ylen := 1 } : State).Inv
    where
  modeLegal := by decide
  errLegal := by decide
  bitLength := by decide
  symLength := by decide
  plsLength := by decide
  smpLength := by decide
  faultWord := by decide
  bitForm := by decide
  symForm := by decide
  plsForm := by decide
  smpForm := by decide
  bitCells := by decide
  symCells := by decide
  plsCells := by decide
  smpCells := by decide

theorem witness_ResetClearsRegistersKeepsMemories :
    (faultedWithMoves [.reset]).script = [.reset] := rfl

/-- The three commands that write a space. -/
theorem witness_ResetDuringCommandSparesOtherSpaces :
    (withMoves [.resetDuring 0x10000000#32]).script = [.resetDuring 0x10000000#32] ∧
    (withMoves [.resetDuring 0x11000000#32]).Idle ∧ (withMoves [.resetDuring 0x12000000#32]).Idle ∧
    (0x01000002#32 : Word) ≠ 0x10000000#32 := by decide

theorem witness_IdleBlockHoldsItsState : State.reset.script = [] := rfl

theorem witness_TablesNeverChange : ∃ t, step (withMoves [.issue 0x10000000#32]) = .next t := ⟨_, rfl⟩

/-- A step that writes all of a result. -/
theorem witness_EveryStepKeepsTheInvariant :
    ({ shapeState with script := [.issue 0x12000000#32] } : State).Inv ∧
    ∃ t, step { shapeState with script := [.issue 0x12000000#32] } = .next t :=
  ⟨⟨by decide, by decide, by decide, by decide, by decide, by decide, by decide, by decide, by decide,
    by decide, by decide, by decide, by decide, by decide, by decide⟩, _, rfl⟩

/-- A run that ends idle and one that ends faulted (program P4). -/
theorem witness_CpIsThePositionInTheRun :
    (∃ t, Host.Core.run core 2 (withMoves [.issue 0x01000005#32, .readReg .cp]) = .next t ∧ t.Idle) ∧
    (∃ t, Host.Core.run core 4 (withMoves [.issue 0x01000005#32, .issue 0x03000004#32,
      .issue 0x10000000#32, .issue 0x11000000#32]) = .next t ∧ t.Faulted) ∧
    (∀ mv ∈ [HostMove.issue 0x01000005#32, .readReg .cp], mv.isReset = false) :=
  ⟨⟨_, rfl, rfl⟩, ⟨_, rfl, by decide⟩, by decide⟩

end Sys2Proof.Tests
end

section
/-! The two statements about how a command word reaches `exec` (spec 00_scope.md rule R14,
30_encoding.md rule R74, 70_reset_and_hazards.md rule R195): the word the host issues next, and the
table word placed as that next move. -/

namespace Sys2Proof.Machine

/-! ### The table's words -/

theorem decodeTableWord_eq_some {nbits w : Nat} {i : Instr} :
    decodeTableWord nbits w = some i ↔
      ∃ v, tableWord nbits w = some v ∧ decode v = .ok i := by
  have toOption_eq_some (v : Word) : (decode v).toOption = some i ↔ decode v = .ok i := by
    cases decode v <;> simp [Except.toOption]
  simp only [decodeTableWord, Option.bind_eq_some_iff, toOption_eq_some]

theorem State.withFetchWord_of_tableWord {nbits w : Nat} {v : Word} (s : State)
    (h : tableWord nbits w = some v) :
    s.withFetchWord nbits w = s.setScript (.issue v :: s.script) := by
  simp only [State.withFetchWord, placeWord, h]

/-- A move put before the script and taken from it again leaves the state as it was. -/
@[simp] theorem State.setScript_setScript_script (s : State) (ms : List HostMove) :
    (s.setScript ms).setScript s.script = s := rfl

/-! ### The step that issues a word -/

/-- On an idle block the issue of a word that decodes runs its command on the state without the
move. -/
theorem step_issue_ok {s : State} {w : Word} {rest : List HostMove} {i : Instr}
    (hs : s.script = .issue w :: rest) (hidle : s.Idle) (hd : decode w = .ok i) :
    step s = exec i (s.setScript rest) :=
  calc step s
    _ = issue w (s.setScript rest) := step_cons hs
    _ = exec i (s.setScript rest) := issue_ok hidle hd

/-- Settles O7: the step takes the issue move, and an idle block runs the command it decodes to. -/
theorem stepRunsTheDecodedCommand : Obligations.StepRunsTheDecodedCommand := by
  intro s w rest i hs hidle hd
  exact step_issue_ok hs hidle hd

/-- Settles O8: the placed word is the next issue move, and taking that move gives back the state
the word was placed in. -/
theorem placedWordRunsNext : Obligations.PlacedWordRunsNext := by
  intro s w i hidle hd
  obtain ⟨v, hv, hdv⟩ := decodeTableWord_eq_some.mp hd
  rw [State.withFetchWord_of_tableWord s hv, step_issue_ok (State.setScript_script s _) hidle hdv,
    State.setScript_setScript_script]

end Sys2Proof.Machine
end

section
/-! A word that decodes is the word of its command (spec 30_encoding.md rules R70 to R74): a
command that faults leaves in FCMD the word that was issued. -/

namespace Sys2Proof

/-- Two adjoining fields of a word are one field (rule R10). -/
theorem bitsAt_append (w : Word) {hi lo k n : Nat} (h : hi = lo + n) :
    bitsAt w hi k ++ bitsAt w lo n = bitsAt w lo (k + n) :=
  BitVec.extractLsb'_append_extractLsb'_eq_extractLsb' h

/-- The opcode field before the 24 operand bits is the word (rule R70). -/
theorem opField_append (w : Word) : opField w ++ bitsAt w 0 24 = w :=
  (bitsAt_append w rfl).trans BitVec.extractLsb'_eq_self

theorem operand_append {w : Word} {op : BitVec 8} (hop : opField w = op) :
    op ++ bitsAt w 0 24 = w := hop ▸ opField_append w

/-- The three fields of SETMODE's format are the word (rule R71). -/
theorem setmodeFields_append (w : Word) : opField w ++ bitsAt w 3 21 ++ bitsAt w 0 3 = w := by
  rw [opField, bitsAt_append w (rfl : 24 = 3 + 21), bitsAt_append w (rfl : 3 = 0 + 3)]
  exact BitVec.extractLsb'_eq_self

/-- The three fields of SETFST's format are the word (rule R71). -/
theorem setfstFields_append (w : Word) : opField w ++ bitsAt w 16 8 ++ bitsAt w 0 16 = w := by
  rw [opField, bitsAt_append w (rfl : 24 = 16 + 8), bitsAt_append w (rfl : 16 = 0 + 16)]
  exact BitVec.extractLsb'_eq_self

theorem decodeZ_eq_ok {w : Word} {i j : Instr} :
    decodeZ w j = .ok i ↔ bitsAt w 0 24 = 0 ∧ j = i := by
  unfold decodeZ
  split <;> simp_all

theorem decodeSetmode_eq_ok {w : Word} {i : Instr} :
    decodeSetmode w = .ok i ↔
      bitsAt w 3 21 = 0 ∧ bitsAt w 0 3 ≠ 7 ∧ .setmode (bitsAt w 0 3) = i := by
  unfold decodeSetmode
  split
  · split <;> simp_all
  · simp_all

theorem decodeSetfst_eq_ok {w : Word} {i : Instr} :
    decodeSetfst w = .ok i ↔ bitsAt w 16 8 = 0 ∧ .setfst (bitsAt w 0 16) = i := by
  unfold decodeSetfst
  split <;> simp_all

/-- A Z-format word that decodes has its opcode and 24 zero bits (rules R71, R74). -/
theorem encode_of_decodeZ {w : Word} {i j : Instr} {op : BitVec 8} (hop : opField w = op)
    (henc : encode j = op ++ 0#24) (h : decodeZ w j = .ok i) : encode i = w := by
  obtain ⟨hz, rfl⟩ := decodeZ_eq_ok.mp h
  have hw := operand_append hop
  rw [hz] at hw
  exact henc.trans hw

/-- A word that decodes is the word of its command (rules R73, R74). -/
theorem encode_of_decode {w : Word} {i : Instr} (h : decode w = .ok i) : encode i = w := by
  unfold decode at h
  split_ifs at h with hop hop hop hop hop hop hop hop
  · obtain ⟨hz, -, rfl⟩ := decodeSetmode_eq_ok.mp h
    have hw := setmodeFields_append w
    rwa [hop, hz] at hw
  · obtain ⟨hz, rfl⟩ := decodeSetfst_eq_ok.mp h
    have hw := setfstFields_append w
    rwa [hop, hz] at hw
  · cases h
    exact operand_append hop
  · cases h
    exact operand_append hop
  · cases h
    exact operand_append hop
  · exact encode_of_decodeZ hop rfl h
  · exact encode_of_decodeZ hop rfl h
  · exact encode_of_decodeZ hop rfl h

end Sys2Proof
end

section
/-! The size of an output sample (spec 43_pulse_and_shape.md rule R143): SHAPE's accumulation is
the direct form, at most PLEN symbols meet one sample, and so the SMP width holds every sample. -/

namespace Sys2Proof
open Finset

@[simp] theorem Cx.add_zero (a : Cx) : a.add Cx.zero = a := by simp [Cx.add, Cx.zero]

/-! ### The size of a product -/

/-- A component of width `n` has magnitude at most 2^(n-1) (rule R9). -/
theorem FitsSigned.abs_le_pow {n : Nat} {x : Int} (h : FitsSigned n x) :
    |x| ≤ ((2 ^ (n - 1) : Nat) : Int) := abs_le.mpr ⟨h.1, by have := h.2; omega⟩

/-- A value whose magnitude is at most 2^(n-2) has width `n`. -/
theorem fitsSigned_of_abs_le {n : Nat} (hn : 2 ≤ n) {x : Int}
    (h : |x| ≤ ((2 ^ (n - 2) : Nat) : Int)) : FitsSigned n x := by
  have hpow : 2 ^ (n - 1) = 2 * 2 ^ (n - 2) := by
    rw [← pow_succ', show n - 2 + 1 = n - 1 by omega]
  have hpos : 0 < 2 ^ (n - 2) := Nat.two_pow_pos _
  have := abs_le.mp h
  constructor <;> omega

/-- Both components of a pair have magnitude at most `b`. -/
def Cx.Within (b : Int) (c : Cx) : Prop := |c.re| ≤ b ∧ |c.im| ≤ b

/-- The product of two pairs of W-bit values (rules R11, R143). -/
theorem Cx.Fits.mul_within {w : Nat} (hw : 1 ≤ w) {a c : Cx} (ha : a.Fits w) (hc : c.Fits w) :
    (a.mul c).Within ((2 ^ (2 * w - 1) : Nat) : Int) := by
  obtain ⟨har, hai⟩ := ha
  obtain ⟨hcr, hci⟩ := hc
  have hpow : ((2 ^ (2 * w - 1) : Nat) : Int) =
      ((2 ^ (w - 1) : Nat) : Int) * ((2 ^ (w - 1) : Nat) : Int) +
      ((2 ^ (w - 1) : Nat) : Int) * ((2 ^ (w - 1) : Nat) : Int) := by
    rw [← two_mul, ← Nat.cast_mul, ← pow_add]
    norm_cast
    rw [← pow_succ', show w - 1 + (w - 1) + 1 = 2 * w - 1 by omega]
  have hprod {x y : Int} (hx : FitsSigned w x) (hy : FitsSigned w y) :
      |x * y| ≤ ((2 ^ (w - 1) : Nat) : Int) * ((2 ^ (w - 1) : Nat) : Int) := by
    rw [abs_mul]
    exact mul_le_mul hx.abs_le_pow hy.abs_le_pow (abs_nonneg _) (Int.natCast_nonneg _)
  rw [hpow]
  exact ⟨(abs_sub _ _).trans (add_le_add (hprod har hcr) (hprod hai hci)),
    (abs_add_le _ _).trans (add_le_add (hprod har hci) (hprod hai hcr))⟩

end Sys2Proof

namespace Sys2Proof.Machine
open Finset

/-! ### Sums of pairs -/

theorem sumCx_succ (n : Nat) (f : Nat → Cx) : sumCx (n + 1) f = (sumCx n f).add (f n) := by
  simp [sumCx, List.range_succ]

theorem sumCx_re (n : Nat) (f : Nat → Cx) : (sumCx n f).re = ∑ k ∈ range n, (f k).re := by
  induction n with
  | zero => rfl
  | succ n ih => rw [sumCx_succ, sum_range_succ, ← ih]; rfl

theorem sumCx_im (n : Nat) (f : Nat → Cx) : (sumCx n f).im = ∑ k ∈ range n, (f k).im := by
  induction n with
  | zero => rfl
  | succ n ih => rw [sumCx_succ, sum_range_succ, ← ih]; rfl

/-! ### The size of a sample (rule R143) -/

/-- SHAPE accumulates the terms of the direct form (rules R140, R142). -/
theorem State.sample_eq_directSample (s : State) (m : Nat) :
    s.sample m =
      directSample s.readSym s.slen.toNat s.readPls s.plen.toNat s.fst.toNat m := by
  have hterm : s.addTerm m = fun acc k => acc.add
      (if k * s.fst.toNat ≤ m ∧ m - k * s.fst.toNat < s.plen.toNat then
        (s.readSym k).mul (s.readPls (m - k * s.fst.toNat)) else Cx.zero) := by
    funext acc k
    unfold State.addTerm
    split
    · rfl
    · rw [Cx.add_zero]
  rw [State.sample, hterm]
  rfl

/-- The symbols whose copy of the pulse covers sample `m` (rule R142). -/
def coveringSymbols (n l fsT m : Nat) : Finset Nat :=
  (range n).filter fun k => k * fsT ≤ m ∧ m - k * fsT < l

/-- Each covering symbol meets the sample at a tap of its own, so there are at most as many as taps
(rule R143). -/
theorem card_coveringSymbols_le (n l m : Nat) {fsT : Nat} (hf : 0 < fsT) :
    (coveringSymbols n l fsT m).card ≤ l := by
  have hmaps : Set.MapsTo (fun k => m - k * fsT) (coveringSymbols n l fsT m) (range l) := by
    intro k hk
    simp_all [coveringSymbols]
  have hinj : Set.InjOn (fun k => m - k * fsT) (coveringSymbols n l fsT m) := by
    intro a ha b hb hab
    simp only [coveringSymbols, coe_filter, Set.mem_ofPred_eq] at ha hb hab
    exact Nat.eq_of_mul_eq_mul_right hf (by omega)
  simpa using card_le_card_of_injOn _ hmaps hinj

/-- A sum of integers over the covering symbols, each at most `b`, is at most `l * b`. -/
theorem abs_sum_covering_le {n l fsT m : Nat} {b : Int} {f : Nat → Int} (hf : 0 < fsT)
    (hb : 0 ≤ b) (h : ∀ k ∈ coveringSymbols n l fsT m, |f k| ≤ b) :
    |∑ k ∈ coveringSymbols n l fsT m, f k| ≤ l * b :=
  calc |∑ k ∈ coveringSymbols n l fsT m, f k|
    _ ≤ ∑ k ∈ coveringSymbols n l fsT m, |f k| := abs_sum_le_sum_abs _ _
    _ ≤ (coveringSymbols n l fsT m).card • b := sum_le_card_nsmul _ _ _ h
    _ = (coveringSymbols n l fsT m).card * b := nsmul_eq_mul _ _
    _ ≤ l * b := by
      have := card_coveringSymbols_le n l m hf
      gcongr

/-- The components of a sample are the sums of the covering symbols' products. -/
theorem directSample_re (s p : Nat → Cx) (n l fsT m : Nat) :
    (directSample s n p l fsT m).re =
      ∑ k ∈ coveringSymbols n l fsT m, ((s k).mul (p (m - k * fsT))).re := by
  rw [directSample, sumCx_re, coveringSymbols, sum_filter]
  exact sum_congr rfl fun k _ => apply_ite Cx.re _ _ _

theorem directSample_im (s p : Nat → Cx) (n l fsT m : Nat) :
    (directSample s n p l fsT m).im =
      ∑ k ∈ coveringSymbols n l fsT m, ((s k).mul (p (m - k * fsT))).im := by
  rw [directSample, sumCx_im, coveringSymbols, sum_filter]
  exact sum_congr rfl fun k _ => apply_ite Cx.im _ _ _

/-- With W-bit symbols and taps a sample's components are at most PLEN * 2^(2W-1) (rule R143). -/
theorem directSample_within {s p : Nat → Cx} {n l fsT w : Nat} (m : Nat) (hw : 1 ≤ w)
    (hf : 0 < fsT) (hs : ∀ k < n, (s k).Fits w) (hp : ∀ j < l, (p j).Fits w) :
    (directSample s n p l fsT m).Within (l * ((2 ^ (2 * w - 1) : Nat) : Int)) := by
  have hterm : ∀ k ∈ coveringSymbols n l fsT m,
      ((s k).mul (p (m - k * fsT))).Within ((2 ^ (2 * w - 1) : Nat) : Int) := by
    intro k hk
    obtain ⟨hkn, -, htap⟩ : k < n ∧ k * fsT ≤ m ∧ m - k * fsT < l := by
      simpa [coveringSymbols] using hk
    exact (hs k hkn).mul_within hw (hp _ htap)
  constructor
  · rw [directSample_re]
    exact abs_sum_covering_le hf (Int.natCast_nonneg _) fun k hk => (hterm k hk).1
  · rw [directSample_im]
    exact abs_sum_covering_le hf (Int.natCast_nonneg _) fun k hk => (hterm k hk).2

/-- The SMP width holds a sum of PCAP products (rules R7, R143). -/
theorem sampleBound_le (c : Config) :
    c.pcap * 2 ^ (2 * c.w - 1) ≤ 2 ^ (c.wy - 2) := by
  have hw := c.legal.width
  have hwy := c.legal.sampleWidth
  calc c.pcap * 2 ^ (2 * c.w - 1)
    _ ≤ 2 ^ Nat.clog 2 c.pcap * 2 ^ (2 * c.w - 1) :=
      Nat.mul_le_mul_right _ (Nat.le_pow_clog one_lt_two _)
    _ = 2 ^ (Nat.clog 2 c.pcap + (2 * c.w - 1)) := (pow_add _ _ _).symm
    _ ≤ 2 ^ (c.wy - 2) := Nat.pow_le_pow_right two_pos (by omega)

end Sys2Proof.Machine
end

section
/-! What a command and a host move that answer a next state leave: the commands' results under
their guards, the accesses of the host, and from these the counting of commands and the frame (spec
10_state.md rules R21, R29). -/

namespace Sys2Proof.Machine

/-! ### What a command that completes leaves -/

/-- The guards of the command hold in `s` and `u` is `s` with the command's results written, before
CP counts it (rules R90 to R94, R110, R121, R140). -/
inductive Completes : Instr → State → State → Prop where
  | setmode {m : BitVec 3} {s : State} {md : Mode} (h : modeOfNum m = some md) :
      Completes (.setmode m) s (s.setMode md)
  | setfst (n : BitVec 16) (s : State) : Completes (.setfst n) s (s.setFst n)
  | setblen {n : BitVec 24} {s : State} (h : n.toNat ≤ s.cfg.bcap) :
      Completes (.setblen n) s (s.setBlen n)
  | setslen {n : BitVec 24} {s : State} (h : n.toNat ≤ s.cfg.scap) :
      Completes (.setslen n) s (s.setSlen n)
  | setplen {n : BitVec 24} {s : State} (h : n.toNat ≤ s.cfg.pcap) :
      Completes (.setplen n) s (s.setPlen n)
  | map {s : State} (hk : s.blen.toNat % s.mode.k = 0)
      (h : s.blen.toNat / s.mode.k ≤ s.cfg.scap) :
      Completes .map s
        ((s.setSym (s.sym.writeSeq (s.mappedSymbols (s.blen.toNat / s.mode.k)))).setSlen
          (BitVec.ofNat 24 (s.blen.toNat / s.mode.k)))
  | demap {s : State} (h : s.slen.toNat * s.mode.k ≤ s.cfg.bcap) :
      Completes .demap s
        ((s.setBit (s.bit.writeSeq (s.demappedBits s.slen.toNat))).setBlen
          (BitVec.ofNat 24 (s.slen.toNat * s.mode.k)))
  | shape {s : State} (hf : s.fst ≠ 0) (hs : s.slen ≠ 0) (hp : s.plen ≠ 0)
      (h : s.shapeLength ≤ s.cfg.ycap) :
      Completes .shape s
        ((s.setSmp (s.smp.writeSeq (s.shapedSamples s.shapeLength))).setYlen
          (BitVec.ofNat 24 s.shapeLength))

/-- Everything a command can do: it raises one fault, or it completes. -/
theorem exec_completes_or_faults (i : Instr) (s : State) :
    (∃ c, c ≠ ErrCode.none ∧ exec i s = .next (s.raiseFault c (encode i))) ∨
    ∃ u, Completes i s u ∧ exec i s = .next u.complete := by
  cases i with
  | setmode m =>
    simp only [exec, execSetmode]
    split
    · exact .inl ⟨_, by decide, rfl⟩
    · exact .inr ⟨_, .setmode ‹_›, rfl⟩
  | setfst n => exact .inr ⟨_, .setfst n s, rfl⟩
  | setblen n =>
    simp only [exec, execSetblen]
    split
    · exact .inl ⟨_, by decide, rfl⟩
    · exact .inr ⟨_, .setblen (not_lt.mp ‹_›), rfl⟩
  | setslen n =>
    simp only [exec, execSetslen]
    split
    · exact .inl ⟨_, by decide, rfl⟩
    · exact .inr ⟨_, .setslen (not_lt.mp ‹_›), rfl⟩
  | setplen n =>
    simp only [exec, execSetplen]
    split
    · exact .inl ⟨_, by decide, rfl⟩
    · exact .inr ⟨_, .setplen (not_lt.mp ‹_›), rfl⟩
  | map =>
    simp only [exec, execMap]
    split
    · exact .inl ⟨_, by decide, rfl⟩
    · split
      · exact .inl ⟨_, by decide, rfl⟩
      · exact .inr ⟨_, .map (not_not.mp ‹_›) (not_lt.mp ‹_›), rfl⟩
  | demap =>
    simp only [exec, execDemap]
    split
    · exact .inl ⟨_, by decide, rfl⟩
    · exact .inr ⟨_, .demap (not_lt.mp ‹_›), rfl⟩
  | shape =>
    simp only [exec, execShape]
    split
    · exact .inl ⟨_, by decide, rfl⟩
    · split
      · exact .inl ⟨_, by decide, rfl⟩
      · rename_i hz h
        obtain ⟨hf, hs, hp⟩ := (not_or.mp hz).imp_right not_or.mp
        exact .inr ⟨_, .shape hf hs hp (not_lt.mp h), rfl⟩

/-- The state after a command: a fault was raised, or the command completed and CP counts it. -/
theorem exec_next {i : Instr} {s t : State} (h : exec i s = .next t) :
    (∃ c, c ≠ ErrCode.none ∧ t = s.raiseFault c (encode i)) ∨
    ∃ u, Completes i s u ∧ t = u.complete := by
  rcases exec_completes_or_faults i s with ⟨c, hc, he⟩ | ⟨u, hu, he⟩
  · exact .inl ⟨c, hc, by simpa [he] using h.symm⟩
  · exact .inr ⟨u, hu, by simpa [he] using h.symm⟩

/-! ### The host's moves that complete -/

theorem writeBit_next {i : Nat} {v : BitVec 1} {s t : State} :
    writeBit i v s = .next t ↔ i < s.cfg.bcap ∧ s.setBit (s.bit.write i v) = t := by
  unfold writeBit
  split <;> simp_all

theorem writeSym_next {i : Nat} {v : Cx} {s t : State} :
    writeSym i v s = .next t ↔
      i < s.cfg.scap ∧ v.Fits s.cfg.w ∧ s.setSym (s.sym.write i v) = t := by
  unfold writeSym
  split_ifs with hi hv
  · exact ⟨fun h => ⟨hi, hv, Host.Outcome.next.inj h⟩, fun ⟨_, _, h⟩ => congrArg _ h⟩
  · simp [hv]
  · simp [hi]

theorem writePls_next {i : Nat} {v : Cx} {s t : State} :
    writePls i v s = .next t ↔
      i < s.cfg.pcap ∧ v.Fits s.cfg.w ∧ s.setPls (s.pls.write i v) = t := by
  unfold writePls
  split_ifs with hi hv
  · exact ⟨fun h => ⟨hi, hv, Host.Outcome.next.inj h⟩, fun ⟨_, _, h⟩ => congrArg _ h⟩
  · simp [hv]
  · simp [hi]

theorem readCell_next {sp : Space} {i : Nat} {s t : State} :
    readCell sp i s = .next t ↔ i < sp.cells s.cfg ∧ s.record (s.readCell sp i) = t := by
  unfold readCell
  split <;> simp_all

theorem readRegister_next {r : Reg} {s t : State} :
    readRegister r s = .next t ↔ s.record (.reg (s.readReg r)) = t := by
  simp [readRegister]

/-! ### The status registers and the frame of a command -/

/-- Settles O11: by the two ways a command can end. -/
theorem cpCountsCompletedCommands : Obligations.CpCountsCompletedCommands := by
  intro i s hidle
  rcases exec_cases i s with ⟨c, hc, he⟩ | ⟨t, he, herr, -, hcp, -⟩
  · exact ⟨_, he, fun h => absurd h hc, fun _ => rfl⟩
  · have hcount : t.cp.toNat = (s.cp.toNat + 1) % 2 ^ 32 := by
      rw [hcp]
      exact BitVec.toNat_add s.cp 1
    exact ⟨t, he, fun _ => hcount, fun h => absurd (herr.trans hidle) h⟩

/-- Settles O13: a fault writes ERR and FCMD only, and a command that completes writes its own
results, then CP. -/
theorem onlyTheNamedCommandsWrite : Obligations.OnlyTheNamedCommandsWrite := by
  intro i s t h
  rcases exec_next h with ⟨c, -, rfl⟩ | ⟨u, hu, rfl⟩
  · simp
  · cases hu <;> simp

end Sys2Proof.Machine
end

section
/-! The reset state, and the invariant of spec 10_state.md rule R36: the reset state meets it,
and it is kept by each write of the state, by each command, and so by every step. -/

namespace Sys2Proof

/-- A mode number is not 7 (rule R22). -/
theorem Mode.num_le (md : Mode) : md.num.toNat ≤ 6 := by cases md <;> decide

end Sys2Proof

namespace Sys2Proof.Machine

/-! ### The cells a memory lists -/

variable {α : Type}

theorem mem_of_lookupCell_eq_some {l : List (Nat × α)} {i : Nat} {v : α}
    (h : lookupCell l i = some v) : (i, v) ∈ l := by
  induction l with
  | nil => simp [lookupCell] at h
  | cons c rest ih =>
    obtain ⟨a, u⟩ := c
    simp only [lookupCell] at h
    split at h
    · simp_all
    · exact List.mem_cons_of_mem _ (ih h)

theorem Memory.mem_of_read {m : Memory α} {i : Nat} {v : α} (h : m.read i = some v) :
    (i, v) ∈ m.cells := mem_of_lookupCell_eq_some h

theorem Memory.forall_mem_write {m : Memory α} {i : Nat} {v : α} {P : Nat × α → Prop}
    (hm : ∀ c ∈ m.cells, P c) (hv : P (i, v)) : ∀ c ∈ (m.write i v).cells, P c := by
  intro c hc
  rcases Memory.mem_write hc with rfl | hc
  · exact hv
  · exact hm c hc

theorem Memory.forall_mem_writeSeq {m : Memory α} {vs : List α} {P : Nat × α → Prop}
    (hm : ∀ c ∈ m.cells, P c) (hvs : ∀ i < vs.length, ∀ v ∈ vs, P (i, v)) :
    ∀ c ∈ (m.writeSeq vs).cells, P c := by
  intro c hc
  rcases Memory.mem_writeSeq hc with ⟨hi, hv⟩ | hc
  · exact hvs c.1 hi c.2 hv
  · exact hm c hc

/-- A length within a capacity is so as a 24-bit register holds it. -/
theorem toNat_ofNat_le {n cap : Nat} (h : n ≤ cap) : (BitVec.ofNat 24 n).toNat ≤ cap := by
  rw [BitVec.toNat_ofNat]
  exact (Nat.mod_le _ _).trans h

/-! ### The reset state and the registers' legal values -/

/-- The codes ERR takes (rule R161). -/
theorem ErrCode.num_mem (c : ErrCode) : c.num ∈ [0#3, 1#3, 3#3, 4#3] := by cases c <;> decide

/-- Settles O47: by cases on the register. -/
theorem registersAtReset : Obligations.RegistersAtReset :=
  ⟨fun r => by cases r <;> rfl, rfl, rfl⟩

/-- Settles O52: the lengths are 0 and no cell is listed. -/
theorem invariantAtReset : Obligations.InvariantAtReset where
  modeLegal := by decide
  errLegal := by decide
  bitLength := Nat.zero_le _
  symLength := Nat.zero_le _
  plsLength := Nat.zero_le _
  smpLength := Nat.zero_le _
  faultWord _ := rfl
  bitForm := unwritten_wf
  symForm := unwritten_wf
  plsForm := unwritten_wf
  smpForm := unwritten_wf
  bitCells := List.forall_mem_nil _
  symCells := List.forall_mem_nil _
  plsCells := List.forall_mem_nil _
  smpCells := List.forall_mem_nil _

/-! ### The invariant -/

/-- A mapped symbol is a table entry (rule R104). -/
theorem State.mappedSymbols_fits (s : State) (n : Nat) :
    ∀ c ∈ s.mappedSymbols n, c.Fits s.cfg.w := by
  intro c hc
  obtain ⟨g, -, rfl⟩ := List.mem_map.mp hc
  exact s.cfg.cromAt_fits s.mode (s.key_lt g)

namespace State.Inv

variable {s : State}

/-! ### The cells of a state that meets the invariant -/

theorem readSym_fits (h : s.Inv) (i : Nat) : (s.readSym i).Fits s.cfg.w := by
  unfold State.readSym
  cases hr : s.sym.read i with
  | none => exact pairValue_fits (by have := s.cfg.legal.width; omega) _
  | some v => exact (h.symCells _ (Memory.mem_of_read hr)).2

theorem readPls_fits (h : s.Inv) (i : Nat) : (s.readPls i).Fits s.cfg.w := by
  unfold State.readPls
  cases hr : s.pls.read i with
  | none => exact pairValue_fits (by have := s.cfg.legal.width; omega) _
  | some v => exact (h.plsCells _ (Memory.mem_of_read hr)).2

/-! ### What SHAPE writes is in its domain -/

/-- A sample of a state that meets the invariant is in the SMP width (rule R143). -/
theorem sample_fits (h : s.Inv) (hf : s.fst ≠ 0) (m : Nat) : (s.sample m).Fits s.cfg.wy := by
  have hw := s.cfg.legal.width
  have hwy := s.cfg.legal.sampleWidth
  have hfst : 0 < s.fst.toNat := Nat.pos_of_ne_zero fun h0 => hf (BitVec.eq_of_toNat_eq h0)
  have hbound : (s.plen.toNat : Int) * ((2 ^ (2 * s.cfg.w - 1) : Nat) : Int) ≤
      ((2 ^ (s.cfg.wy - 2) : Nat) : Int) := by
    exact_mod_cast (Nat.mul_le_mul_right _ h.plsLength).trans (sampleBound_le s.cfg)
  obtain ⟨hre, him⟩ := directSample_within (n := s.slen.toNat) (l := s.plen.toNat) m
    (by omega : 1 ≤ s.cfg.w) hfst (fun k _ => h.readSym_fits k) fun j _ => h.readPls_fits j
  rw [State.sample_eq_directSample]
  exact ⟨fitsSigned_of_abs_le (by omega) (hre.trans hbound),
    fitsSigned_of_abs_le (by omega) (him.trans hbound)⟩

theorem shapedSamples_fits (h : s.Inv) (hf : s.fst ≠ 0) (y : Nat) :
    ∀ c ∈ s.shapedSamples y, c.Fits s.cfg.wy := by
  intro c hc
  obtain ⟨m, -, rfl⟩ := List.mem_map.mp hc
  exact h.sample_fits hf m

/-! ### Each write of the state keeps the invariant -/

theorem setMode (h : s.Inv) (md : Mode) : (s.setMode md).Inv :=
  { h with modeLegal := md.num_le }

theorem setFst (h : s.Inv) (n : BitVec 16) : (s.setFst n).Inv := { h with }

theorem setBlen (h : s.Inv) {n : BitVec 24} (hn : n.toNat ≤ s.cfg.bcap) : (s.setBlen n).Inv :=
  { h with bitLength := hn }

theorem setSlen (h : s.Inv) {n : BitVec 24} (hn : n.toNat ≤ s.cfg.scap) : (s.setSlen n).Inv :=
  { h with symLength := hn }

theorem setPlen (h : s.Inv) {n : BitVec 24} (hn : n.toNat ≤ s.cfg.pcap) : (s.setPlen n).Inv :=
  { h with plsLength := hn }

theorem setYlen (h : s.Inv) {n : BitVec 24} (hn : n.toNat ≤ s.cfg.ycap) : (s.setYlen n).Inv :=
  { h with smpLength := hn }

theorem setBit (h : s.Inv) {m : Memory (BitVec 1)} (hwf : m.wf = true)
    (hm : ∀ c ∈ m.cells, c.1 < s.cfg.bcap) : (s.setBit m).Inv :=
  { h with bitForm := hwf, bitCells := hm }

theorem setSym (h : s.Inv) {m : Memory Cx} (hwf : m.wf = true)
    (hm : ∀ c ∈ m.cells, c.1 < s.cfg.scap ∧ c.2.Fits s.cfg.w) : (s.setSym m).Inv :=
  { h with symForm := hwf, symCells := hm }

theorem setPls (h : s.Inv) {m : Memory Cx} (hwf : m.wf = true)
    (hm : ∀ c ∈ m.cells, c.1 < s.cfg.pcap ∧ c.2.Fits s.cfg.w) : (s.setPls m).Inv :=
  { h with plsForm := hwf, plsCells := hm }

theorem setSmp (h : s.Inv) {m : Memory Cx} (hwf : m.wf = true)
    (hm : ∀ c ∈ m.cells, c.1 < s.cfg.ycap ∧ c.2.Fits s.cfg.wy) : (s.setSmp m).Inv :=
  { h with smpForm := hwf, smpCells := hm }

theorem setScript (h : s.Inv) (ms : List HostMove) : (s.setScript ms).Inv := { h with }

theorem record (h : s.Inv) (v : ReadValue) : (s.record v).Inv := { h with }

theorem complete (h : s.Inv) : s.complete.Inv := { h with }

theorem raiseFault (h : s.Inv) {c : ErrCode} (hc : c ≠ .none) (w : Word) :
    (s.raiseFault c w).Inv :=
  { h with
    errLegal := c.num_mem
    faultWord := fun h0 => absurd h0 hc }

theorem resetRegisters (h : s.Inv) : s.resetRegisters.Inv :=
  { h with
    modeLegal := Mode.bpsk.num_le
    errLegal := ErrCode.none.num_mem
    bitLength := Nat.zero_le _
    symLength := Nat.zero_le _
    plsLength := Nat.zero_le _
    smpLength := Nat.zero_le _
    faultWord := fun _ => rfl }

theorem forgetOutput (h : s.Inv) (i : Instr) : (s.forgetOutput i).Inv := by
  rcases s.forgetOutput_cases i with e | e | e | e <;> rw [e]
  · exact h
  · exact h.setSym s.sym.forget_wf (List.forall_mem_nil _)
  · exact h.setBit s.bit.forget_wf (List.forall_mem_nil _)
  · exact h.setSmp s.smp.forget_wf (List.forall_mem_nil _)

/-! ### Commands -/

/-- A command that completes writes lengths within the capacities and cells within their space and
domain (rules R92 to R94, R110, R121, R140, R143). -/
theorem of_completes (h : s.Inv) {i : Instr} {u : State} (hu : Completes i s u) : u.Inv := by
  cases hu with
  | setmode _ => exact h.setMode _
  | setfst n => exact h.setFst n
  | setblen hn => exact h.setBlen hn
  | setslen hn => exact h.setSlen hn
  | setplen hn => exact h.setPlen hn
  | map _ hn =>
    refine (h.setSym (Memory.writeSeq_wf _ _ h.symForm)
      (Memory.forall_mem_writeSeq h.symCells fun i hi c hc => ?_)).setSlen (toNat_ofNat_le hn)
    rw [State.mappedSymbols_length] at hi
    exact ⟨hi.trans_le hn, s.mappedSymbols_fits _ c hc⟩
  | demap hn =>
    refine (h.setBit (Memory.writeSeq_wf _ _ h.bitForm)
      (Memory.forall_mem_writeSeq h.bitCells fun i hi _ _ => ?_)).setBlen (toNat_ofNat_le hn)
    rw [State.demappedBits_length] at hi
    exact hi.trans_le hn
  | shape hf _ _ hn =>
    refine (h.setSmp (Memory.writeSeq_wf _ _ h.smpForm)
      (Memory.forall_mem_writeSeq h.smpCells fun i hi c hc => ?_)).setYlen (toNat_ofNat_le hn)
    rw [State.shapedSamples_length] at hi
    exact ⟨hi.trans_le hn, h.shapedSamples_fits hf _ c hc⟩

theorem of_exec (h : s.Inv) {i : Instr} {t : State} (ht : exec i s = .next t) : t.Inv := by
  rcases exec_next ht with ⟨c, hc, rfl⟩ | ⟨u, hu, rfl⟩
  · exact h.raiseFault hc _
  · exact (h.of_completes hu).complete

theorem of_issue (h : s.Inv) {w : Word} {t : State} (ht : issue w s = .next t) : t.Inv := by
  rcases issue_cases w s with ⟨-, he⟩ | ⟨-, e, -, he⟩ | ⟨-, i, -, he⟩ <;> rw [he] at ht
  · cases ht
    exact h
  · cases ht
    exact h.raiseFault (by decide) w
  · exact h.of_exec ht

/-! ### Host moves -/

theorem of_resetDuring (h : s.Inv) {w : Word} {t : State} (ht : resetDuring w s = .next t) :
    t.Inv := by
  rcases resetDuring_cases w s with he | ⟨i, -, -, he⟩ <;> rw [he] at ht <;> cases ht
  · exact h.resetRegisters
  · exact (h.forgetOutput i).resetRegisters

theorem of_takeMove (h : s.Inv) {mv : HostMove} {t : State} (ht : takeMove mv s = .next t) :
    t.Inv := by
  cases mv with
  | writeBit i v =>
    obtain ⟨hi, rfl⟩ := writeBit_next.mp ht
    exact h.setBit (Memory.write_wf _ _ _ h.bitForm) (Memory.forall_mem_write h.bitCells hi)
  | writeSym i v =>
    obtain ⟨hi, hv, rfl⟩ := writeSym_next.mp ht
    exact h.setSym (Memory.write_wf _ _ _ h.symForm) (Memory.forall_mem_write h.symCells ⟨hi, hv⟩)
  | writePls i v =>
    obtain ⟨hi, hv, rfl⟩ := writePls_next.mp ht
    exact h.setPls (Memory.write_wf _ _ _ h.plsForm) (Memory.forall_mem_write h.plsCells ⟨hi, hv⟩)
  | readCell sp i =>
    obtain ⟨-, rfl⟩ := readCell_next.mp ht
    exact h.record _
  | readReg r =>
    obtain rfl := readRegister_next.mp ht
    exact h.record _
  | issue w => exact h.of_issue ht
  | reset =>
    cases ht
    exact h.resetRegisters
  | resetDuring w => exact h.of_resetDuring ht

end State.Inv

/-- Settles O53: a step with no move left holds the state, and each of the host's moves keeps the
invariant. -/
theorem everyStepKeepsTheInvariant : Obligations.EveryStepKeepsTheInvariant := by
  intro s t h ht
  cases hs : s.script with
  | nil =>
    rw [step_nil hs] at ht
    cases ht
    exact h
  | cons mv rest =>
    rw [step_cons hs] at ht
    exact (h.setScript rest).of_takeMove ht

end Sys2Proof.Machine
end

section
/-! Runs without reset (spec 10_state.md rules R29, R30, 70_reset_and_hazards.md rule R196): the
block counts the words it is issued until one faults, and from then on keeps its status registers. -/

namespace Sys2Proof.Machine

/-! ### What a move without reset does to the status registers -/

/-- ERR, FCMD and CP are the same in both states. -/
structure SameStatus (s t : State) : Prop where
  err : t.err = s.err
  fcmd : t.fcmd = s.fcmd
  cp : t.cp = s.cp

theorem SameStatus.trans {s t u : State} (h : SameStatus s t) (h' : SameStatus t u) :
    SameStatus s u := ⟨h'.err.trans h.err, h'.fcmd.trans h.fcmd, h'.cp.trans h.cp⟩

theorem SameStatus.idle {s t : State} (h : SameStatus s t) (hidle : s.Idle) : t.Idle :=
  h.err.trans hidle

theorem SameStatus.faulted {s t : State} (h : SameStatus s t) (hf : s.Faulted) : t.Faulted :=
  fun ht => hf (h.err.symm.trans ht)

/-- The host's script is not among the status registers. -/
theorem SameStatus.of_setScript {s t : State} {ms : List HostMove}
    (h : SameStatus (s.setScript ms) t) : SameStatus s t := ⟨h.err, h.fcmd, h.cp⟩

/-- The issue of a word to an idle block counts the word or stops at it (rules R29, R30). -/
theorem issue_idle {w : Word} {s t : State} (hidle : s.Idle) (h : issue w s = .next t) :
    t.script = s.script ∧
      (t.Idle ∧ t.cp = s.cp + 1 ∨ t.Faulted ∧ t.fcmd = w ∧ t.cp = s.cp) := by
  rcases issue_cases w s with ⟨hf, -⟩ | ⟨-, e, -, he⟩ | ⟨-, i, hd, he⟩
  · exact absurd hidle hf
  · obtain rfl : s.raiseFault .illegalCommand w = t := by simpa [he] using h
    exact ⟨rfl, .inr ⟨ErrCode.noConfusion, rfl, rfl⟩⟩
  · rcases exec_cases i s with ⟨c, hc, hx⟩ | ⟨u, hx, herr, -, hcp, -, hscript, -⟩
    · obtain rfl : s.raiseFault c (encode i) = t := by simpa [he, hx, raise] using h
      exact ⟨rfl, .inr ⟨hc, encode_of_decode hd, rfl⟩⟩
    · obtain rfl : u = t := by simpa [he, hx] using h
      exact ⟨hscript, .inl ⟨herr.trans hidle, hcp⟩⟩

/-- A move without reset keeps the status registers, but for a word an idle block takes
(rules R31, R167). -/
theorem takeMove_sameStatus {mv : HostMove} {s t : State} (hr : mv.isReset = false)
    (hw : s.Faulted ∨ ∀ w, mv ≠ .issue w) (h : takeMove mv s = .next t) :
    t.script = s.script ∧ SameStatus s t := by
  cases mv with
  | writeBit i v =>
    obtain ⟨-, rfl⟩ := writeBit_next.mp h
    exact ⟨rfl, rfl, rfl, rfl⟩
  | writeSym i v =>
    obtain ⟨-, -, rfl⟩ := writeSym_next.mp h
    exact ⟨rfl, rfl, rfl, rfl⟩
  | writePls i v =>
    obtain ⟨-, -, rfl⟩ := writePls_next.mp h
    exact ⟨rfl, rfl, rfl, rfl⟩
  | readCell sp i =>
    obtain ⟨-, rfl⟩ := readCell_next.mp h
    exact ⟨rfl, rfl, rfl, rfl⟩
  | readReg r =>
    obtain rfl := readRegister_next.mp h
    exact ⟨rfl, rfl, rfl, rfl⟩
  | issue w =>
    have hf : s.Faulted := hw.resolve_right fun hne => hne w rfl
    obtain rfl : s = t := by simpa [takeMove, issue_faulted hf] using h
    exact ⟨rfl, rfl, rfl, rfl⟩
  | reset => simp [HostMove.isReset] at hr
  | resetDuring w => simp [HostMove.isReset] at hr

/-! ### Runs -/

theorem run_succ {M : Host.Core} {k : Nat} {s t : M.State} (h : M.run (k + 1) s = .next t) :
    ∃ u, M.step s = .next u ∧ M.run k u = .next t := by
  simp only [Host.Core.run] at h
  split at h
  · exact ⟨_, ‹_›, h⟩
  · cases h
  · cases h

/-- A run over a whole script takes its first move, then runs over the rest. -/
theorem run_cons {s t : State} {mv : HostMove} {rest : List HostMove}
    (hs : s.script = mv :: rest) (h : Host.Core.run core s.script.length s = .next t) :
    ∃ u, takeMove mv (s.setScript rest) = .next u ∧
      Host.Core.run core rest.length u = .next t := by
  rw [hs] at h
  obtain ⟨u, hu, hrun⟩ := run_succ h
  exact ⟨u, (step_cons hs).symm.trans hu, hrun⟩

/-- A faulted block uses up a script without reset and keeps its status registers (rule R167). -/
theorem run_faulted {s t : State} (hf : s.Faulted) (hr : ∀ mv ∈ s.script, mv.isReset = false)
    (h : Host.Core.run core s.script.length s = .next t) : t.script = [] ∧ SameStatus s t := by
  induction hs : s.script generalizing s with
  | nil =>
    rw [hs] at h
    cases h
    exact ⟨hs, rfl, rfl, rfl⟩
  | cons mv rest ih =>
    obtain ⟨u, hu, hrun⟩ := run_cons hs h
    rw [hs, List.forall_mem_cons] at hr
    obtain ⟨hscript, hsame⟩ := takeMove_sameStatus (s := s.setScript rest) hr.1 (.inl hf) hu
    obtain rfl : u.script = rest := hscript
    obtain ⟨hend, hrest⟩ := ih (hsame.faulted hf) hr.2 hrun rfl
    exact ⟨hend, hsame.of_setScript.trans hrest⟩

/-- From `s` to `t` the block was issued `ws`: if `t` is idle CP has counted them all, and if `t` is
faulted CP has counted the words before the one FCMD holds (rules R29, R30). -/
def CountsWords (ws : List Word) (s t : State) : Prop :=
  (t.Idle → t.cp = s.cp + BitVec.ofNat 32 ws.length) ∧
  (t.Faulted → ∃ n, ws[n]? = some t.fcmd ∧ t.cp = s.cp + BitVec.ofNat 32 n)

theorem countsWords_nil {s t : State} (hidle : t.Idle) (hcp : t.cp = s.cp) :
    CountsWords [] s t := ⟨fun _ => by simp [hcp], fun hf => absurd hidle hf⟩

theorem CountsWords.of_sameStatus {ws : List Word} {s u t : State} (h : CountsWords ws u t)
    (hsame : SameStatus s u) : CountsWords ws s t := by
  rwa [CountsWords, hsame.cp] at h

/-- A word that completed is counted, and the position of a later fault is one more. -/
theorem CountsWords.cons {w : Word} {ws : List Word} {s u t : State} (hcp : u.cp = s.cp + 1)
    (h : CountsWords ws u t) : CountsWords (w :: ws) s t := by
  have hadd (n : Nat) : u.cp + BitVec.ofNat 32 n = s.cp + BitVec.ofNat 32 (n + 1) := by
    rw [hcp, Nat.add_comm n 1, BitVec.ofNat_add, BitVec.add_assoc]
    rfl
  constructor
  · intro hidle
    rw [h.1 hidle, hadd, List.length_cons]
  · intro hf
    obtain ⟨n, hn, ht⟩ := h.2 hf
    exact ⟨n + 1, by simpa using hn, ht.trans (hadd n)⟩

/-- A word that faulted stands at the position CP has reached. -/
theorem countsWords_fault {ws : List Word} {s t : State} (hf : t.Faulted) (hcp : t.cp = s.cp) :
    CountsWords (t.fcmd :: ws) s t :=
  ⟨fun hidle => absurd hidle hf, fun _ => ⟨0, rfl, by simp [hcp]⟩⟩

theorem issuedWords_cons_of_ne {mv : HostMove} (h : ∀ w, mv ≠ .issue w) (ms : List HostMove) :
    issuedWords (mv :: ms) = issuedWords ms := by
  cases mv with
  | issue w => exact absurd rfl (h w)
  | _ => rfl

/-- A run without reset from an idle state uses up its script and counts the words it issues. -/
theorem run_idle {s t : State} (hidle : s.Idle) (hr : ∀ mv ∈ s.script, mv.isReset = false)
    (h : Host.Core.run core s.script.length s = .next t) :
    t.script = [] ∧ CountsWords (issuedWords s.script) s t := by
  induction hs : s.script generalizing s with
  | nil =>
    rw [hs] at h
    cases h
    exact ⟨hs, countsWords_nil hidle rfl⟩
  | cons mv rest ih =>
    obtain ⟨u, hu, hrun⟩ := run_cons hs h
    rw [hs, List.forall_mem_cons] at hr
    by_cases hw : ∃ w, mv = .issue w
    · obtain ⟨w, rfl⟩ := hw
      obtain ⟨hscript, hcase⟩ := issue_idle (s := s.setScript rest) hidle hu
      obtain rfl : u.script = rest := hscript
      rcases hcase with ⟨huidle, hcp⟩ | ⟨huf, rfl, hcp⟩
      · obtain ⟨hend, hcount⟩ := ih huidle hr.2 hrun rfl
        exact ⟨hend, hcount.cons hcp⟩
      · obtain ⟨hend, hsame⟩ := run_faulted huf hr.2 hrun
        have hcount := countsWords_fault (ws := issuedWords u.script) (s := s)
          (hsame.faulted huf) (hsame.cp.trans hcp)
        exact ⟨hend, hsame.fcmd ▸ hcount⟩
    · have hne : ∀ w, mv ≠ .issue w := not_exists.mp hw
      obtain ⟨hscript, hsame⟩ := takeMove_sameStatus (s := s.setScript rest) hr.1 (.inr hne) hu
      obtain rfl : u.script = rest := hscript
      obtain ⟨hend, hcount⟩ := ih (hsame.idle hidle) hr.2 hrun rfl
      rw [issuedWords_cons_of_ne hne]
      exact ⟨hend, hcount.of_sameStatus hsame.of_setScript⟩

/-- Settles O54: by induction on the script, the block idle until a word faults. -/
theorem cpIsThePositionInTheRun : Obligations.CpIsThePositionInTheRun :=
  fun _ _ hidle hr h => run_idle hidle hr h

end Sys2Proof.Machine
end

section
/-! The order in which the cells of a result are written (spec 20_memory.md rules R64, R69,
70_reset_and_hazards.md rule R191): cells written one by one, in any order of the indices, give the
memory with the sequence written. -/

namespace Sys2Proof.Machine

variable {α : Type}

/-! ### Cells written one by one -/

/-- `m` after the writes of the values `f i` to the cells `i` of `order`, in that order. -/
def Memory.writeEach (m : Memory α) (f : Nat → α) (order : List Nat) : Memory α :=
  order.foldl (fun acc i => acc.write i (f i)) m

@[simp] theorem Memory.writeEach_cons (m : Memory α) (f : Nat → α) (i : Nat) (order : List Nat) :
    m.writeEach f (i :: order) = (m.write i (f i)).writeEach f order := rfl

@[simp] theorem Memory.writeEach_epoch (m : Memory α) (f : Nat → α) (order : List Nat) :
    (m.writeEach f order).epoch = m.epoch := by
  induction order generalizing m with
  | nil => rfl
  | cons i order ih => rw [Memory.writeEach_cons, ih, Memory.write_epoch]

theorem Memory.writeEach_wf {m : Memory α} (h : m.wf = true) (f : Nat → α) (order : List Nat) :
    (m.writeEach f order).wf = true := by
  induction order generalizing m with
  | nil => exact h
  | cons i order ih => exact ih (m.write_wf i (f i) h)

/-- A cell written more than once takes the same value each time, so only whether it is written
matters. -/
theorem Memory.read_writeEach (m : Memory α) (f : Nat → α) (order : List Nat) (j : Nat) :
    (m.writeEach f order).read j = if j ∈ order then some (f j) else m.read j := by
  induction order generalizing m with
  | nil => simp [Memory.writeEach]
  | cons i order ih =>
    rw [Memory.writeEach_cons, ih, Memory.read_write]
    by_cases hj : j ∈ order
    · simp [hj]
    · by_cases hi : i = j
      · simp [hi]
      · simp [hj, hi, Ne.symm hi]

/-- Canonical memories with equal reads are equal, and neither side's reads know the order. -/
theorem Memory.writeEach_eq_writeSeq {m : Memory α} {vs : List α} {f : Nat → α} {order : List Nat}
    (hm : m.wf = true) (ho : order.Perm (List.range vs.length))
    (hf : ∀ i < vs.length, vs[i]? = some (f i)) : m.writeEach f order = m.writeSeq vs := by
  refine Memory.eq_of_read_eq (Memory.writeEach_wf hm f order) (m.writeSeq_wf vs hm)
    (by simp) fun j => ?_
  have hmem : j ∈ order ↔ j < vs.length := ho.mem_iff.trans List.mem_range
  rw [Memory.read_writeEach, Memory.read_writeSeq]
  by_cases hj : j < vs.length
  · rw [if_pos (hmem.mpr hj), if_pos hj, hf j hj]
  · rw [if_neg (mt hmem.mp hj), if_neg hj]

/-- The values may be taken from the memory with the sequence written, whatever its never-written
cells hold. -/
theorem Memory.writeSeq_eq_writeEach_read {m : Memory α} {vs : List α} {order : List Nat}
    (free : Nat → α) (hm : m.wf = true) (ho : order.Perm (List.range vs.length)) :
    m.writeSeq vs = m.writeEach (fun i => ((m.writeSeq vs).read i).getD (free i)) order := by
  refine (Memory.writeEach_eq_writeSeq hm ho fun i hi => ?_).symm
  rw [Memory.read_writeSeq, if_pos hi, List.getElem?_eq_getElem hi, Option.getD_some]

/-! ### The results of MAP, DEMAP and SHAPE -/

/-- A length within the capacity of a space is what its 24-bit register holds (rule R7). -/
theorem toNat_ofNat_of_le {n cap : Nat} (h : n ≤ cap) (hcap : cap ≤ 2 ^ 24 - 1) :
    (BitVec.ofNat 24 n).toNat = n := by
  rw [BitVec.toNat_ofNat]
  exact Nat.mod_eq_of_lt (by omega)

/-- A command that answers an idle state completed. -/
theorem completes_of_idle {i : Instr} {s t : State} (h : exec i s = .next t) (ht : t.Idle) :
    ∃ u, Completes i s u ∧ t = u.complete := by
  rcases exec_next h with ⟨c, hc, rfl⟩ | hu
  · exact absurd ht hc
  · exact hu

theorem map_sym_eq_writeEach {s t : State} {order : List Nat} (h : exec .map s = .next t)
    (ht : t.Idle) (hwf : s.sym.wf = true) (ho : order.Perm (List.range t.slen.toNat)) :
    t.sym = s.sym.writeEach t.readSym order := by
  obtain ⟨u, hu, rfl⟩ := completes_of_idle h ht
  cases hu with
  | map hk hn =>
    have hlen := toNat_ofNat_of_le hn s.cfg.legal.symCells.2
    refine Memory.writeSeq_eq_writeEach_read _ hwf ?_
    simpa [hlen] using ho

theorem demap_bit_eq_writeEach {s t : State} {order : List Nat} (h : exec .demap s = .next t)
    (ht : t.Idle) (hwf : s.bit.wf = true) (ho : order.Perm (List.range t.blen.toNat)) :
    t.bit = s.bit.writeEach t.readBit order := by
  obtain ⟨u, hu, rfl⟩ := completes_of_idle h ht
  cases hu with
  | demap hn =>
    have hlen := toNat_ofNat_of_le hn s.cfg.legal.bitCells.2
    refine Memory.writeSeq_eq_writeEach_read _ hwf ?_
    simpa [hlen] using ho

theorem shape_smp_eq_writeEach {s t : State} {order : List Nat} (h : exec .shape s = .next t)
    (ht : t.Idle) (hwf : s.smp.wf = true) (ho : order.Perm (List.range t.ylen.toNat)) :
    t.smp = s.smp.writeEach t.readSmp order := by
  obtain ⟨u, hu, rfl⟩ := completes_of_idle h ht
  cases hu with
  | shape hf hs hp hn =>
    have hlen := toNat_ofNat_of_le hn s.cfg.legal.smpCells.2
    refine Memory.writeSeq_eq_writeEach_read _ hwf ?_
    simpa [hlen] using ho

/-- Settles O42: the memories are canonical and read the same at every index. -/
theorem cellWriteOrderIsUnobservable : Obligations.CellWriteOrderIsUnobservable := by
  refine ⟨fun α d m vs order hm ho => ?_, fun s t order _ h ht => map_sym_eq_writeEach h ht,
    fun s t order _ h ht => demap_bit_eq_writeEach h ht,
    fun s t order _ h ht => shape_smp_eq_writeEach h ht⟩
  refine Memory.writeEach_eq_writeSeq (f := fun i => vs.getD i d) hm ho fun i hi => ?_
  rw [List.getD_eq_getElem vs d hi, List.getElem?_eq_getElem hi]

end Sys2Proof.Machine
end

section
/-! What the cells hold, and the host's accesses to them (spec 20_memory.md rules R51, R52, R58,
R59). -/

/-! ### The domains of the cells -/

namespace Sys2Proof

/-- Every CROM cell is an entry of a table, hence in range (rules R51, R104). -/
theorem Config.cromCell_fits (c : Config) {i : Nat} (h : i < cromCells) :
    (c.cromCell i).Fits c.w := by
  have hlen : i < c.crom.length := h.trans_eq c.legal.total.symm
  refine c.legal.range _ ?_
  rw [Params.cromCell, List.getD_eq_getElem _ _ hlen]
  exact List.getElem_mem hlen

end Sys2Proof

namespace Sys2Proof.Machine

variable {α : Type}

theorem State.Inv.readSmp_fits {s : State} (h : s.Inv) (i : Nat) :
    (s.readSmp i).Fits s.cfg.wy := by
  unfold State.readSmp
  cases hr : s.smp.read i with
  | none => exact pairValue_fits (by have := s.cfg.legal.sampleWidth; omega) _
  | some v => exact (h.smpCells _ (Memory.mem_of_read hr)).2

/-- Settles O46: a written cell is in range by the invariant, a never-written one by the type of its
free value, a CROM cell by the configuration's legality. -/
theorem cellsHoldValuesOfTheirDomain : Obligations.CellsHoldValuesOfTheirDomain :=
  fun s i h => ⟨h.readSym_fits i, h.readPls_fits i, h.readSmp_fits i,
    BitVec.eq_zero_or_eq_one (s.readBit i), fun hi => s.cfg.cromCell_fits hi⟩

/-! ### Host writes -/

/-- The host's view of a memory after a write of one cell: `free` is what the cell read holds where
nothing has written it. -/
theorem Memory.read_write_getD (m : Memory α) (i : Nat) (v : α) (a : Nat) (free : α) :
    ((m.write i v).read a).getD free = if a = i then v else (m.read a).getD free := by
  rw [Memory.read_write]
  by_cases h : a = i
  · simp [h]
  · simp [h, Ne.symm h]

theorem State.readBit_setBit_write (s : State) (i : Nat) (v : BitVec 1) (a : Nat) :
    (s.setBit (s.bit.write i v)).readBit a = if a = i then v else s.readBit a :=
  s.bit.read_write_getD i v a _

theorem State.readSym_setSym_write (s : State) (i : Nat) (v : Cx) (a : Nat) :
    (s.setSym (s.sym.write i v)).readSym a = if a = i then v else s.readSym a :=
  s.sym.read_write_getD i v a _

theorem State.readPls_setPls_write (s : State) (i : Nat) (v : Cx) (a : Nat) :
    (s.setPls (s.pls.write i v)).readPls a = if a = i then v else s.readPls a :=
  s.pls.read_write_getD i v a _

/-- A host write that answers a next state is one of rule R58. -/
theorem isLegalWrite_of_takeMove {mv : HostMove} {s t : State} (hw : mv.isWrite = true)
    (h : takeMove mv s = .next t) : mv.IsLegalWrite s.cfg := by
  cases mv with
  | writeBit i v => exact (writeBit_next.mp h).1
  | writeSym i v =>
    obtain ⟨hi, hv, -⟩ := writeSym_next.mp h
    exact ⟨hi, hv⟩
  | writePls i v =>
    obtain ⟨hi, hv, -⟩ := writePls_next.mp h
    exact ⟨hi, hv⟩
  | _ => cases hw

/-- Settles O43: the new memory is the old one with the cell written, and a write that answers a
next state is a legal one. -/
theorem hostWriteChangesOnlyItsCell : Obligations.HostWriteChangesOnlyItsCell := by
  refine ⟨fun s i v rest hs hi => ?_, fun s i v rest hs hi hv => ?_,
    fun s i v rest hs hi hv => ?_, fun s t mv rest hs hw hl hstep => ?_⟩
  · have hread := (s.setScript rest).readBit_setBit_write i v
    exact ⟨s.bit.write i v, (step_cons hs).trans (writeBit_next.mpr ⟨hi, rfl⟩),
      (hread i).trans (if_pos rfl), fun a ha => (hread a).trans (if_neg ha)⟩
  · have hread := (s.setScript rest).readSym_setSym_write i v
    exact ⟨s.sym.write i v, (step_cons hs).trans (writeSym_next.mpr ⟨hi, hv, rfl⟩),
      (hread i).trans (if_pos rfl), fun a ha => (hread a).trans (if_neg ha)⟩
  · have hread := (s.setScript rest).readPls_setPls_write i v
    exact ⟨s.pls.write i v, (step_cons hs).trans (writePls_next.mpr ⟨hi, hv, rfl⟩),
      (hread i).trans (if_pos rfl), fun a ha => (hread a).trans (if_neg ha)⟩
  · rw [step_cons hs] at hstep
    exact hl (isLegalWrite_of_takeMove (s := s.setScript rest) hw hstep)

/-! ### Accesses that do not exist -/

theorem writeBit_of_le {i : Nat} {v : BitVec 1} {s : State} (h : s.cfg.bcap ≤ i) :
    writeBit i v s = .fault (.noSuchCell .bit i) := if_neg h.not_gt

theorem writeSym_of_le {i : Nat} {v : Cx} {s : State} (h : s.cfg.scap ≤ i) :
    writeSym i v s = .fault (.noSuchCell .sym i) := if_neg h.not_gt

theorem writeSym_of_not_fits {i : Nat} {v : Cx} {s : State} (hi : i < s.cfg.scap)
    (hv : ¬ v.Fits s.cfg.w) : writeSym i v s = .refused (.valueOutsideCell .sym i v) :=
  (if_pos hi).trans (if_neg hv)

theorem writePls_of_le {i : Nat} {v : Cx} {s : State} (h : s.cfg.pcap ≤ i) :
    writePls i v s = .fault (.noSuchCell .pls i) := if_neg h.not_gt

theorem writePls_of_not_fits {i : Nat} {v : Cx} {s : State} (hi : i < s.cfg.pcap)
    (hv : ¬ v.Fits s.cfg.w) : writePls i v s = .refused (.valueOutsideCell .pls i v) :=
  (if_pos hi).trans (if_neg hv)

theorem readCell_of_le {sp : Space} {i : Nat} {s : State} (h : sp.cells s.cfg ≤ i) :
    readCell sp i s = .fault (.noSuchCell sp i) := if_neg h.not_gt

/-- Settles O44: the step takes the access, which fails the test of its index or of its value. -/
theorem accessesThatDoNotExistStop : Obligations.AccessesThatDoNotExistStop :=
  ⟨fun _ _ _ _ hs hi => (step_cons hs).trans (writeBit_of_le hi),
    fun _ _ _ _ hs => ⟨fun hi => (step_cons hs).trans (writeSym_of_le hi),
      fun hi hv => (step_cons hs).trans (writeSym_of_not_fits hi hv)⟩,
    fun _ _ _ _ hs => ⟨fun hi => (step_cons hs).trans (writePls_of_le hi),
      fun hi hv => (step_cons hs).trans (writePls_of_not_fits hi hv)⟩,
    fun _ _ _ _ hs hi => (step_cons hs).trans (readCell_of_le hi)⟩

/-! ### Host reads -/

/-- Settles O45: by cases on the register and on the space, each value recorded as it stands. -/
theorem hostReadChangesNothing : Obligations.HostReadChangesNothing := by
  refine ⟨fun s r => ?_, fun s r rest hs => ?_, fun s sp i rest hs hi => ?_⟩
  · cases r with
    | mode => cases hm : s.mode <;> simp [State.readReg, hm, Mode.num]
    | err => cases he : s.err <;> simp [State.readReg, he, ErrCode.num]
    | _ => rfl
  · exact (step_cons hs).trans (readRegister_next.mpr rfl)
  · refine (step_cons hs).trans (readCell_next.mpr ⟨hi, ?_⟩)
    cases sp <;> rfl

end Sys2Proof.Machine
end

section
/-! The decoder and the encoder are inverse, and the words the decoder refuses are the illegal words
(spec 30_encoding.md rules R70 to R78). A word is read by its fields: what fits a row of the table
is the word of a term of that row, and decoding the word of a term gives the term back unless the
term is SETMODE 7. -/

namespace Sys2Proof

/-! ### Fields and rows -/

/-- A field as a number (rule R10). -/
theorem bitsAt_toNat (w : Word) (lo len : Nat) :
    (bitsAt w lo len).toNat = w.toNat / 2 ^ lo % 2 ^ len := by
  rw [bitsAt, BitVec.extractLsb'_toNat, Nat.shiftRight_eq_div_pow]

/-- A word that fits a row has the row's bits in every field that the mask covers (rule R73). -/
theorem bitsAt_of_fits {pattern mask w : Word} {lo len : Nat}
    (h : TableRow.fits ⟨pattern, mask⟩ w = true) (hmask : bitsAt mask lo len = BitVec.allOnes len) :
    bitsAt w lo len = bitsAt pattern lo len :=
  calc bitsAt w lo len
    _ = bitsAt w lo len &&& bitsAt mask lo len := by rw [hmask, BitVec.and_allOnes]
    _ = bitsAt (w &&& mask) lo len := BitVec.extractLsb'_and.symm
    _ = bitsAt pattern lo len := congrArg (bitsAt · lo len) (eq_of_beq h)

/-- The word of a term fits the term's row (rule R73). -/
theorem fits_encode (i : Instr) : i.row.fits (encode i) = true := by
  cases i with
  | setmode m => exact Laws.OpcodeRow.setmode m
  | setfst n => exact Laws.OpcodeRow.setfst n
  | setblen n => exact Laws.OpcodeRow.setblen n
  | setslen n => exact Laws.OpcodeRow.setslen n
  | setplen n => exact Laws.OpcodeRow.setplen n
  | map => exact Laws.OpcodeRow.map
  | demap => exact Laws.OpcodeRow.demap
  | shape => exact Laws.OpcodeRow.shape

/-- The bits above an operand of `n` bits are the row's, and with the operand they are the word. -/
theorem append_operand_of_fits {pattern mask w : Word} {k n : Nat}
    (h : TableRow.fits ⟨pattern, mask⟩ w = true) (hmask : bitsAt mask n k = BitVec.allOnes k) :
    bitsAt pattern n k ++ bitsAt w 0 n = bitsAt w 0 (k + n) := by
  rw [← bitsAt_of_fits h hmask]
  exact bitsAt_append w (Nat.zero_add n).symm

@[simp] theorem opField_append_operand (op : BitVec 8) (n : BitVec 24) : opField (op ++ n) = op :=
  BitVec.extractLsb'_append_eq_left

@[simp] theorem bitsAt_append_operand (op : BitVec 8) (n : BitVec 24) :
    bitsAt (op ++ n) 0 24 = n :=
  BitVec.extractLsb'_append_eq_right

@[simp] theorem opField_encode_setfst (n : BitVec 16) : opField (encode (.setfst n)) = 0x02#8 :=
  bitsAt_of_fits (fits_encode (.setfst n)) rfl

@[simp] theorem bitsAt_encode_setfst_high (n : BitVec 16) :
    bitsAt (encode (.setfst n)) 16 8 = 0#8 :=
  bitsAt_of_fits (fits_encode (.setfst n)) rfl

@[simp] theorem bitsAt_encode_setfst (n : BitVec 16) : bitsAt (encode (.setfst n)) 0 16 = n :=
  BitVec.extractLsb'_append_eq_right

/-- What fits a row is the word of a term of that row (rules R71, R73). -/
theorem exists_encode_of_fits {i : Instr} {w : Word} (h : i.row.fits w = true) :
    ∃ j : Instr, j.row = i.row ∧ encode j = w := by
  have hw : bitsAt w 0 32 = w := BitVec.extractLsb'_eq_self
  cases i with
  | setmode m =>
    exact ⟨.setmode (bitsAt w 0 3), rfl, (append_operand_of_fits (k := 29) h rfl).trans hw⟩
  | setfst n =>
    exact ⟨.setfst (bitsAt w 0 16), rfl, (append_operand_of_fits (k := 16) h rfl).trans hw⟩
  | setblen n =>
    exact ⟨.setblen (bitsAt w 0 24), rfl, (append_operand_of_fits (k := 8) h rfl).trans hw⟩
  | setslen n =>
    exact ⟨.setslen (bitsAt w 0 24), rfl, (append_operand_of_fits (k := 8) h rfl).trans hw⟩
  | setplen n =>
    exact ⟨.setplen (bitsAt w 0 24), rfl, (append_operand_of_fits (k := 8) h rfl).trans hw⟩
  | map => exact ⟨.map, rfl, (bitsAt_of_fits h rfl).symm.trans hw⟩
  | demap => exact ⟨.demap, rfl, (bitsAt_of_fits h rfl).symm.trans hw⟩
  | shape => exact ⟨.shape, rfl, (bitsAt_of_fits h rfl).symm.trans hw⟩

/-! ### The round trip -/

/-- Decoding the word of a term gives the term back, but for SETMODE 7 (rules R73, R75). -/
theorem decode_encode (i : Instr) :
    decode (encode i) = if i.wf then .ok i else .error .setmodeSeven := by
  cases i with
  | setmode m => revert m; decide
  | setfst n => simp [decode, decodeSetfst, Instr.wf]
  | setblen n | setslen n | setplen n => simp [encode, decode, Instr.wf]
  | map | demap | shape => rfl

/-- Only SETMODE 7 is no command (rule R75). -/
theorem eq_setmode_seven_of_not_wf {i : Instr} (h : ¬ i.wf = true) : i = .setmode 7 := by
  cases i with
  | setmode m => simpa [Instr.wf] using h
  | _ => exact absurd rfl h

/-- Settles O2: a well-formed command is not SETMODE 7. -/
theorem decodeInvertsEncode : Obligations.DecodeInvertsEncode :=
  fun i hwf => (decode_encode i).trans (if_pos hwf)

/-- A word decodes to the commands whose word it is: there is one of them, or none. -/
theorem decode_eq_ok_iff {w : Word} {i : Instr} :
    decode w = .ok i ↔ encode i = w ∧ i.wf = true := by
  constructor
  · intro h
    obtain rfl := encode_of_decode h
    refine ⟨rfl, ?_⟩
    by_contra hwf
    simp [decode_encode, hwf] at h
  · rintro ⟨rfl, hwf⟩
    exact decodeInvertsEncode i hwf

/-- Settles O3: what decodes is not SETMODE 7, the one term whose word is refused. -/
theorem encodeInvertsDecode : Obligations.EncodeInvertsDecode := fun _ _ => decode_eq_ok_iff.mp

/-- Two terms have different words (rule R74): the word of SETMODE 7 is refused, and every other
decodes to its term. -/
theorem encode_injective : Function.Injective encode := by
  intro i j h
  have hd : decode (encode i) = decode (encode j) := congrArg decode h
  rw [decode_encode, decode_encode] at hd
  by_cases hi : i.wf = true <;> by_cases hj : j.wf = true
  · simpa [hi, hj] using hd
  · simp [hi, hj] at hd
  · simp [hi, hj] at hd
  · rw [eq_setmode_seven_of_not_wf hi, eq_setmode_seven_of_not_wf hj]

/-! ### The table's rows -/

/-- The 24 low bits of a term's word are its operand, with 0 above it (rules R71, R72). -/
theorem operand_encode (i : Instr) : (bitsAt (encode i) 0 24).toNat = Machine.operandOf i := by
  cases i with
  | setmode m => revert m; decide
  | setfst n =>
    have happ := bitsAt_append (lo := 0) (k := 8) (n := 16) (encode (.setfst n)) rfl
    rw [bitsAt_encode_setfst_high, bitsAt_encode_setfst] at happ
    calc (bitsAt (encode (.setfst n)) 0 24).toNat
      _ = (0#8 ++ n).toNat := congrArg BitVec.toNat happ.symm
      _ = n.toNat := (BitVec.toNat_append 0#8 n).trans (by simp)
  | setblen n | setslen n | setplen n => simp [encode, Machine.operandOf]
  | map | demap | shape => rfl

/-- A word that fits two rows is the word of a term of each, and those are one term (rule R74). -/
theorem row_eq_of_fits {w : Word} {i j : Instr} (hi : i.row.fits w = true)
    (hj : j.row.fits w = true) : i.row = j.row := by
  obtain ⟨i', hi', rfl⟩ := exists_encode_of_fits hi
  obtain ⟨j', hj', hw⟩ := exists_encode_of_fits hj
  rw [← hi', ← hj', encode_injective hw]

/-- The words that decode are the words of the table's rows, but for SETMODE 7 (rules R74, R75). -/
theorem exists_decode_eq_ok_iff {w : Word} :
    (∃ i, decode w = .ok i) ↔ (∃ j : Instr, j.row.fits w = true) ∧ w ≠ encode (.setmode 7) := by
  constructor
  · rintro ⟨i, hi⟩
    obtain ⟨rfl, hwf⟩ := decode_eq_ok_iff.mp hi
    refine ⟨⟨i, fits_encode i⟩, fun h => ?_⟩
    obtain rfl := encode_injective h
    exact absurd hwf (by decide)
  · rintro ⟨⟨j, hj⟩, hne⟩
    obtain ⟨i, -, rfl⟩ := exists_encode_of_fits hj
    have hwf : i.wf = true := by
      by_contra h
      exact hne (congrArg encode (eq_setmode_seven_of_not_wf h))
    exact ⟨i, decode_eq_ok_iff.mpr ⟨rfl, hwf⟩⟩

/-- Settles O4: a word that decodes is the word of a term, which fits the term's row and carries its
operand. -/
theorem everyWordMatchesOneRowOrIsIllegal : Obligations.EveryWordMatchesOneRowOrIsIllegal := by
  refine ⟨fun w i h => ?_, fun w i j => row_eq_of_fits, fun w => exists_decode_eq_ok_iff⟩
  obtain rfl := encode_of_decode h
  refine ⟨fits_encode i, ?_⟩
  rw [← operand_encode, bitsAt_toNat, pow_zero, Nat.div_one]

/-! ### The illegal words -/

theorem exists_decodeZ_eq_error {w : Word} {i : Instr} :
    (∃ e, decodeZ w i = .error e) ↔ bitsAt w 0 24 ≠ 0 := by
  unfold decodeZ
  split <;> simp_all

theorem exists_decodeSetmode_eq_error {w : Word} :
    (∃ e, decodeSetmode w = .error e) ↔ bitsAt w 3 21 ≠ 0 ∨ bitsAt w 0 3 = 7 := by
  unfold decodeSetmode
  split
  · split <;> simp_all
  · simp_all

theorem exists_decodeSetfst_eq_error {w : Word} :
    (∃ e, decodeSetfst w = .error e) ↔ bitsAt w 16 8 ≠ 0 := by
  unfold decodeSetfst
  split <;> simp_all

/-- The five cases of rule R75 in terms of the word's fields. -/
theorem isIllegalWord_iff {w : Word} :
    Machine.IsIllegalWord w ↔
      opField w ∉ [0x01#8, 0x02#8, 0x03#8, 0x04#8, 0x05#8, 0x10#8, 0x11#8, 0x12#8] ∨
      (opField w ∈ [0x10#8, 0x11#8, 0x12#8] ∧ bitsAt w 0 24 ≠ 0) ∨
      (opField w = 0x01#8 ∧ bitsAt w 3 21 ≠ 0) ∨
      (opField w = 0x01#8 ∧ bitsAt w 0 3 = 7) ∨
      (opField w = 0x02#8 ∧ bitsAt w 16 8 ≠ 0) := by
  have hop : (opField w).toNat = w.toNat / 2 ^ 24 := by
    rw [opField, bitsAt_toNat]
    have := w.isLt
    omega
  have hlow (k n : Nat) : (bitsAt w n k).toNat = w.toNat % 2 ^ (n + k) / 2 ^ n := by
    rw [bitsAt_toNat, pow_add, Nat.mod_mul_right_div_self]
  simp [Machine.IsIllegalWord, ← BitVec.toNat_inj, hop, hlow]

/-- The decoder refuses exactly the words of rule R75: it tests the opcode, then the bits that the
opcode's format fixes. -/
theorem exists_decode_eq_error_iff {w : Word} :
    (∃ e, decode w = .error e) ↔ Machine.IsIllegalWord w := by
  rw [isIllegalWord_iff]
  unfold decode
  split_ifs with h1 h2 h3 h4 h5 h10 h11 h12
  · simp [exists_decodeSetmode_eq_error, h1]
  · simp [exists_decodeSetfst_eq_error, h2]
  · simp [h3]
  · simp [h4]
  · simp [h5]
  · simp [exists_decodeZ_eq_error, h10]
  · simp [exists_decodeZ_eq_error, h11]
  · simp [exists_decodeZ_eq_error, h12]
  · simp [h1, h2, h3, h4, h5, h10, h11, h12]

/-- Settles O5: the step takes the issue move, and an idle block faults a word that is refused. -/
theorem illegalWordsFaultIllegalCommand : Obligations.IllegalWordsFaultIllegalCommand := by
  refine ⟨fun w => exists_decode_eq_error_iff, fun s w rest hs hidle hw => ?_⟩
  obtain ⟨e, hd⟩ := exists_decode_eq_error_iff.mpr hw
  calc Machine.step s
    _ = Machine.issue w (s.setScript rest) := Machine.step_cons hs
    _ = .next ((s.setScript rest).raiseFault .illegalCommand w) := Machine.issue_illegal hidle hd

/-! ### Fixed words and texts -/

/-- Settles O1: the decoder is run on the ten words. -/
theorem encodingExamplesDecode : Obligations.EncodingExamplesDecode :=
  ⟨rfl, rfl, rfl, rfl, rfl, rfl, rfl, rfl, rfl, rfl⟩

/-- Settles O6: the assembler is run on the seven lines. -/
theorem modeNamesAreSetmodeOperands : Obligations.ModeNamesAreSetmodeOperands := by
  unfold Obligations.ModeNamesAreSetmodeOperands
  decide

end Sys2Proof
end

section
/-! The configuration commands (spec 40_config_commands.md). One that completes writes one register,
under a guard that reads the configuration and no register, so two of them commute or the later one
overwrites the earlier. -/

namespace Sys2Proof.Machine

/-! ### The results and the faults of a command -/

/-- A command whose guards hold completes with its results. -/
theorem Completes.exec_eq {i : Instr} {s u : State} (h : Completes i s u) :
    exec i s = .next u.complete := by
  cases h with
  | setmode h => simp only [exec, execSetmode, h]
  | setfst n => rfl
  | setblen h => exact if_neg (not_lt.mpr h)
  | setslen h => exact if_neg (not_lt.mpr h)
  | setplen h => exact if_neg (not_lt.mpr h)
  | map hk h => exact (if_neg (not_not.mpr hk)).trans (if_neg (not_lt.mpr h))
  | demap h => exact if_neg (not_lt.mpr h)
  | shape hf hs hp h =>
    exact (if_neg (not_or.mpr ⟨hf, not_or.mpr ⟨hs, hp⟩⟩)).trans (if_neg (not_lt.mpr h))

theorem exec_setmode_seven (s : State) :
    exec (.setmode 7) s = raise .illegalCommand (.setmode 7) s := rfl

theorem exec_setblen_of_lt {n : BitVec 24} {s : State} (h : s.cfg.bcap < n.toNat) :
    exec (.setblen n) s = raise .capacity (.setblen n) s := if_pos h

theorem exec_setslen_of_lt {n : BitVec 24} {s : State} (h : s.cfg.scap < n.toNat) :
    exec (.setslen n) s = raise .capacity (.setslen n) s := if_pos h

theorem exec_setplen_of_lt {n : BitVec 24} {s : State} (h : s.cfg.pcap < n.toNat) :
    exec (.setplen n) s = raise .capacity (.setplen n) s := if_pos h

/-! ### The register write of a configuration command -/

/-- Under configuration `c` the command's guard holds and `f` is its register write (rules R90 to
R94). -/
inductive ConfigWrite (c : Config) : Instr → (State → State) → Prop where
  | setmode {m : BitVec 3} {md : Mode} (h : modeOfNum m = some md) :
      ConfigWrite c (.setmode m) fun s => s.setMode md
  | setfst (n : BitVec 16) : ConfigWrite c (.setfst n) fun s => s.setFst n
  | setblen {n : BitVec 24} (h : n.toNat ≤ c.bcap) :
      ConfigWrite c (.setblen n) fun s => s.setBlen n
  | setslen {n : BitVec 24} (h : n.toNat ≤ c.scap) :
      ConfigWrite c (.setslen n) fun s => s.setSlen n
  | setplen {n : BitVec 24} (h : n.toNat ≤ c.pcap) :
      ConfigWrite c (.setplen n) fun s => s.setPlen n

/-- The four data memories replaced. -/
def State.setMemories (s : State) (mb : Memory (BitVec 1)) (ms mp my : Memory Cx) : State :=
  (((s.setBit mb).setSym ms).setPls mp).setSmp my

theorem State.complete_setMemories (s : State) (mb : Memory (BitVec 1)) (ms mp my : Memory Cx) :
    s.complete.setMemories mb ms mp my = (s.setMemories mb ms mp my).complete := rfl

namespace ConfigWrite

variable {c : Config} {i j : Instr} {f g : State → State}

theorem completes {s : State} (h : ConfigWrite s.cfg i f) : Completes i s (f s) := by
  cases h with
  | setmode h => exact .setmode h
  | setfst n => exact .setfst n s
  | setblen h => exact .setblen h
  | setslen h => exact .setslen h
  | setplen h => exact .setplen h

theorem exec_eq {s : State} (h : ConfigWrite s.cfg i f) : exec i s = .next (f s).complete :=
  h.completes.exec_eq

theorem apply_cfg (h : ConfigWrite c i f) (s : State) : (f s).cfg = s.cfg := by cases h <;> rfl

theorem apply_err (h : ConfigWrite c i f) (s : State) : (f s).err = s.err := by cases h <;> rfl

/-- No register write reads or writes CP. -/
theorem apply_complete (h : ConfigWrite c i f) (s : State) : f s.complete = (f s).complete := by
  cases h <;> rfl

theorem apply_setMemories (h : ConfigWrite c i f) (s : State) (mb : Memory (BitVec 1))
    (ms mp my : Memory Cx) : f (s.setMemories mb ms mp my) = (f s).setMemories mb ms mp my := by
  cases h <;> rfl

/-- Two writes of one mnemonic write the same register, and of two mnemonics different ones. -/
theorem apply_apply (hf : ConfigWrite c i f) (hg : ConfigWrite c j g) (s : State) :
    g (f s) = if i.row = j.row then g s else f (g s) := by
  cases hf <;> cases hg <;> rfl

end ConfigWrite

/-- What a configuration command does is fixed by the configuration: it raises one fault in every
state, or in every state it writes its register. -/
theorem faults_or_configWrite {i : Instr} (hi : isConfigCommand i = true) (c : Config) :
    (∃ e, e ≠ ErrCode.none ∧ ∀ s : State, s.cfg = c → exec i s = raise e i s) ∨
      ∃ f, ConfigWrite c i f := by
  cases i with
  | setmode m =>
    rcases modeOfNum_cases m with ⟨md, h, -⟩ | ⟨-, rfl⟩
    · exact .inr ⟨_, .setmode h⟩
    · exact .inl ⟨.illegalCommand, by decide, fun s _ => exec_setmode_seven s⟩
  | setfst n => exact .inr ⟨_, .setfst n⟩
  | setblen n =>
    rcases le_or_gt n.toNat c.bcap with h | h
    · exact .inr ⟨_, .setblen h⟩
    · exact .inl ⟨.capacity, by decide, fun s hs => exec_setblen_of_lt (hs ▸ h)⟩
  | setslen n =>
    rcases le_or_gt n.toNat c.scap with h | h
    · exact .inr ⟨_, .setslen h⟩
    · exact .inl ⟨.capacity, by decide, fun s hs => exec_setslen_of_lt (hs ▸ h)⟩
  | setplen n =>
    rcases le_or_gt n.toNat c.pcap with h | h
    · exact .inr ⟨_, .setplen h⟩
    · exact .inl ⟨.capacity, by decide, fun s hs => exec_setplen_of_lt (hs ▸ h)⟩
  | map | demap | shape => exact absurd hi (by decide)

/-- A configuration command that answers an idle state wrote its register. -/
theorem exists_configWrite {i : Instr} {s t : State} (hi : isConfigCommand i = true)
    (h : exec i s = .next t) (ht : t.Idle) :
    ∃ f, ConfigWrite s.cfg i f ∧ t = (f s).complete := by
  rcases faults_or_configWrite hi s.cfg with ⟨e, he, hfault⟩ | ⟨f, hf⟩
  · obtain rfl := Host.Outcome.next.inj ((hfault s rfl).symm.trans h)
    exact absurd ht he
  · exact ⟨f, hf, Host.Outcome.next.inj (h.symm.trans hf.exec_eq)⟩

/-- Two configuration commands that complete wrote their registers, one after the other. -/
theorem exists_configWrite_pair {i j : Instr} {s a b : State} (hi : isConfigCommand i = true)
    (hj : isConfigCommand j = true) (ha : exec i s = .next a) (hai : a.Idle)
    (hb : exec j a = .next b) (hbi : b.Idle) :
    ∃ f g, ConfigWrite s.cfg i f ∧ ConfigWrite s.cfg j g ∧ b = (g (f s)).complete.complete := by
  obtain ⟨f, hf, rfl⟩ := exists_configWrite hi ha hai
  obtain ⟨g, hg, rfl⟩ := exists_configWrite hj hb hbi
  rw [State.complete_cfg, hf.apply_cfg] at hg
  exact ⟨f, g, hf, hg, by rw [hg.apply_complete]⟩

/-- The opcodes of the configuration commands are those below 0x10 (rule R73). -/
theorem isConfigCommand_eq_row (i : Instr) :
    isConfigCommand i = decide (i.row.pattern < 0x10000000#32) := by cases i <;> rfl

/-! ### The two orders of a pair, and the data memories -/

theorem configCommands_commute {i j : Instr} {s a b : State} (hi : isConfigCommand i = true)
    (hj : isConfigCommand j = true) (hrow : i.row ≠ j.row) (hs : s.Idle)
    (ha : exec i s = .next a) (hai : a.Idle) (hb : exec j a = .next b) (hbi : b.Idle) :
    ∃ c, exec j s = .next c ∧ c.Idle ∧ exec i c = .next b := by
  obtain ⟨f, g, hf, hg, rfl⟩ := exists_configWrite_pair hi hj ha hai hb hbi
  have hf' : ConfigWrite (g s).complete.cfg i f := by rwa [State.complete_cfg, hg.apply_cfg]
  have hcomm : g (f s) = f (g s) := (hf.apply_apply hg s).trans (if_neg hrow)
  refine ⟨(g s).complete, hg.exec_eq, (hg.apply_err s).trans hs, ?_⟩
  rw [hf'.exec_eq, hf.apply_complete, hcomm]

theorem configCommand_later_wins {i j : Instr} {s a b : State} (hi : isConfigCommand i = true)
    (hrow : i.row = j.row) (ha : exec i s = .next a) (hai : a.Idle) (hb : exec j a = .next b)
    (hbi : b.Idle) : ∃ c, exec j s = .next c ∧ b = c.complete := by
  have hj : isConfigCommand j = true := by
    rwa [isConfigCommand_eq_row, ← hrow, ← isConfigCommand_eq_row]
  obtain ⟨f, g, hf, hg, rfl⟩ := exists_configWrite_pair hi hj ha hai hb hbi
  have hwins : g (f s) = g s := (hf.apply_apply hg s).trans (if_pos hrow)
  exact ⟨(g s).complete, hg.exec_eq, by rw [hwins]⟩

theorem configCommand_setMemories {i : Instr} {s t : State} (hi : isConfigCommand i = true)
    (h : exec i s = .next t) (mb : Memory (BitVec 1)) (ms mp my : Memory Cx) :
    exec i (s.setMemories mb ms mp my) = .next (t.setMemories mb ms mp my) := by
  rcases faults_or_configWrite hi s.cfg with ⟨e, -, hfault⟩ | ⟨f, hf⟩
  · obtain rfl := Host.Outcome.next.inj ((hfault s rfl).symm.trans h)
    exact hfault _ rfl
  · obtain rfl := Host.Outcome.next.inj (hf.exec_eq.symm.trans h)
    have hf' : ConfigWrite (s.setMemories mb ms mp my).cfg i f := hf
    rw [hf'.exec_eq, hf.apply_setMemories, State.complete_setMemories]

/-- Settles O19: each command is a register write, and neither its guard nor its write reads another
register or a memory. -/
theorem configCommandsCommute : Obligations.ConfigCommandsCommute :=
  ⟨fun _ _ _ _ _ => configCommands_commute,
    fun _ _ _ _ _ hi hrow _ => configCommand_later_wins hi hrow,
    fun _ _ _ mb ms mp my hi h => configCommand_setMemories hi h mb ms mp my⟩

/-! ### Each command's results and faults -/

/-- Settles O14: a mode's number selects the mode; the refused words are two of the cases of
rule R75. -/
theorem setmodeSelectsTheConstellation : Obligations.SetmodeSelectsTheConstellation := by
  refine ⟨fun md s => (Completes.setmode (modeOfNum_num md)).exec_eq, exec_setmode_seven,
    fun s w rest hs hidle hop hbits => ?_⟩
  have hillegal : IsIllegalWord w := by
    rcases hbits with hreserved | hseven
    · exact .inr (.inr (.inl ⟨hop, hreserved⟩))
    · exact .inr (.inr (.inr (.inl ⟨hop, hseven⟩)))
  exact illegalWordsFaultIllegalCommand.2 s w rest hs hidle hillegal

/-- Settles O15: SETFST has no guard; the refused words are one of the cases of rule R75. -/
theorem setfstSetsTheSymbolPeriod : Obligations.SetfstSetsTheSymbolPeriod :=
  ⟨fun n s => (Completes.setfst n s).exec_eq, fun s w rest hs hidle hop hreserved =>
    illegalWordsFaultIllegalCommand.2 s w rest hs hidle
      (.inr (.inr (.inr (.inr ⟨hop, hreserved⟩))))⟩

/-- Settles O16: the guard of rule R92 holds or fails. -/
theorem setblenDeclaresTheBitLength : Obligations.SetblenDeclaresTheBitLength :=
  fun _ _ => ⟨fun h => (Completes.setblen h).exec_eq, exec_setblen_of_lt⟩

/-- Settles O17: the guard of rule R93 holds or fails. -/
theorem setslenDeclaresTheSymbolLength : Obligations.SetslenDeclaresTheSymbolLength :=
  fun _ _ => ⟨fun h => (Completes.setslen h).exec_eq, exec_setslen_of_lt⟩

/-- Settles O18: the guard of rule R94 holds or fails. -/
theorem setplenDeclaresThePulseLength : Obligations.SetplenDeclaresThePulseLength :=
  fun _ _ => ⟨fun h => (Completes.setplen h).exec_eq, exec_setplen_of_lt⟩

end Sys2Proof.Machine
end

section
/-! MAP (spec 41_constellation_and_map.md rules R110, R112): the key of a group as a sum, the
symbols and the length a MAP that completes leaves, and the result sequences of commands run on the
empty sequence or run twice. -/

namespace Sys2Proof.Machine

variable {α : Type} {s s' t u : State}

/-! ### The symbol of a group -/

/-- Reading the bits most significant first doubles the key at each bit, which is the sum of
rule R12. -/
theorem keyFrom_map_range (f : Nat → BitVec 1) (k : Nat) :
    keyFrom ((List.range k).map f) =
      ((List.range k).map fun i => (f i).toNat * 2 ^ (k - 1 - i)).sum := by
  induction k with
  | zero => rfl
  | succ k ih =>
    have hdouble : ∀ i ∈ List.range k,
        (f i).toNat * 2 ^ (k + 1 - 1 - i) = 2 * ((f i).toNat * 2 ^ (k - 1 - i)) := by
      intro i hi
      have hexp : k + 1 - 1 - i = k - 1 - i + 1 := by
        have := List.mem_range.mp hi
        omega
      rw [hexp, pow_succ]
      ring
    rw [List.range_succ, List.map_append, List.map_singleton, keyFrom_append, ih, List.map_append,
      List.sum_append, List.map_congr_left hdouble, List.sum_map_mul_left]
    simp

/-- MAP's symbol of a group is the table entry of the key of rule R12. -/
theorem State.symbolOfGroup_eq (s : State) (g : Nat) :
    s.symbolOfGroup g = s.cfg.cromAt s.mode (groupKey s.readBit g s.mode.k) :=
  congrArg (s.cfg.cromAt s.mode) (keyFrom_map_range _ _)

/-- The symbol of a group is a function of the table and of that group's bits (rule R112). -/
theorem State.symbolOfGroup_congr {g g' : Nat} (hcfg : s'.cfg = s.cfg) (hmode : s'.mode = s.mode)
    (hbits : ∀ i < s.mode.k, s'.readBit (g' * s.mode.k + i) = s.readBit (g * s.mode.k + i)) :
    s'.symbolOfGroup g' = s.symbolOfGroup g := by
  have hgroup : s'.bitGroup g' = s.bitGroup g := by
    rw [State.bitGroup, hmode]
    exact List.map_congr_left fun i hi => hbits i (List.mem_range.mp hi)
  rw [State.symbolOfGroup, hcfg, hmode, hgroup, State.symbolOfGroup]

/-- Where the first `n` groups of `a` are the groups of `s` from `off` on, so are their symbols. -/
theorem State.symbolOfGroup_add {a : State} {off n g : Nat} (hcfg : a.cfg = s.cfg)
    (hmode : a.mode = s.mode)
    (hbits : ∀ i < n * s.mode.k, s.readBit (off * s.mode.k + i) = a.readBit i) (hg : g < n) :
    s.symbolOfGroup (off + g) = a.symbolOfGroup g := by
  refine (State.symbolOfGroup_congr hcfg hmode fun i hi => ?_).symm
  have hlt : g * s.mode.k + i < n * s.mode.k :=
    calc g * s.mode.k + i
      _ < (g + 1) * s.mode.k := by rw [Nat.succ_mul]; omega
      _ ≤ n * s.mode.k := Nat.mul_le_mul_right _ hg
  rw [Nat.add_mul, Nat.add_assoc, hbits _ hlt]

/-! ### What MAP does -/

theorem exec_map_of_mod_ne (h : s.blen.toNat % s.mode.k ≠ 0) :
    exec .map s = raise .invalidInput .map s := if_pos h

theorem exec_map_of_lt (hk : s.blen.toNat % s.mode.k = 0)
    (h : s.cfg.scap < s.blen.toNat / s.mode.k) : exec .map s = raise .capacity .map s :=
  (if_neg (not_not.mpr hk)).trans (if_pos h)

namespace Completes

/-- No command that completes writes ERR. -/
theorem err_eq {i : Instr} (h : Completes i s u) : u.err = s.err := by cases h <;> rfl

/-- SLEN holds the number of groups: it is within SCAP, so no bit is lost. -/
theorem map_slen (h : Completes .map s u) : u.slen.toNat = s.blen.toNat / s.mode.k := by
  cases h with
  | map hk hn => exact toNat_ofNat_of_le hn s.cfg.legal.symCells.2

theorem map_readSym (h : Completes .map s u) (g : Nat) :
    u.readSym g =
      if g < s.blen.toNat / s.mode.k then s.symbolOfGroup g else s.readSym g := by
  cases h with
  | map hk hn =>
    rw [State.setSlen_readSym, State.setSym_readSym, Memory.read_writeSeq,
      State.mappedSymbols_length]
    split
    · rw [State.mappedSymbols_getElem? s ‹_›, Option.getD_some]
    · rfl

theorem map_readSym_of_lt (h : Completes .map s u) {g : Nat} (hg : g < s.blen.toNat / s.mode.k) :
    u.readSym g = s.symbolOfGroup g := (h.map_readSym g).trans (if_pos hg)

end Completes

/-- A MAP of `n` groups, within SCAP, completes: SLEN holds `n`, the first `n` cells the groups'
symbols. -/
theorem map_of_blen_eq {n : Nat} (hblen : s.blen.toNat = n * s.mode.k) (hn : n ≤ s.cfg.scap)
    (h : exec .map s = .next t) :
    t.err = s.err ∧ t.slen.toNat = n ∧ ∀ g < n, t.readSym g = s.symbolOfGroup g := by
  have hgroups : s.blen.toNat / s.mode.k = n := by
    rw [hblen, Nat.mul_div_cancel _ s.mode.k_pos]
  have hu := Completes.map (s := s) (by rw [hblen, Nat.mul_mod_left]) (hgroups.trans_le hn)
  obtain rfl := Host.Outcome.next.inj (hu.exec_eq.symm.trans h)
  exact ⟨hu.err_eq, hu.map_slen.trans hgroups, fun g hg =>
    hu.map_readSym_of_lt (hg.trans_eq hgroups.symm)⟩

/-- A MAP that answers an idle state read SLEN whole groups. -/
theorem map_groups_of_idle (h : exec .map s = .next t) (ht : t.Idle) :
    s.blen.toNat = t.slen.toNat * s.mode.k ∧ t.slen.toNat ≤ s.cfg.scap := by
  obtain ⟨u, hu, rfl⟩ := completes_of_idle h ht
  have hslen : u.complete.slen.toNat = s.blen.toNat / s.mode.k := hu.map_slen
  cases hu with
  | map hk hn =>
    rw [hslen]
    exact ⟨(Nat.div_mul_cancel (Nat.dvd_of_mod_eq_zero hk)).symm, hn⟩

/-- Settles O20: the result of a MAP whose guards hold, its two faults, and one of the cases of
rule R75. -/
theorem mapWritesTheSymbolOfEachGroup : Obligations.MapWritesTheSymbolOfEachGroup := by
  refine fun s => ⟨fun hk hn => ?_, exec_map_of_mod_ne, exec_map_of_lt,
    fun w rest hs hidle hop hbits => ?_⟩
  · have h := Completes.map hk hn
    exact ⟨_, h.exec_eq, h.map_slen,
      fun g hg => (h.map_readSym_of_lt hg).trans (s.symbolOfGroup_eq g),
      fun a ha => (h.map_readSym a).trans (if_neg ha.not_gt)⟩
  · have hmem : w.toNat / 2 ^ 24 ∈ [0x10, 0x11, 0x12] := by rw [hop]; decide
    exact illegalWordsFaultIllegalCommand.2 s w rest hs hidle (.inr (.inl ⟨hmem, hbits⟩))

/-- Settles O21: both states have the same number of groups, and the two groups spell the same
key. -/
theorem mapSymbolDependsOnItsGroup : Obligations.MapSymbolDependsOnItsGroup := by
  intro s s' t t' g hcfg hmode hblen _ hidle' h ht h' hg hbits
  obtain ⟨hgroups, hn⟩ := map_groups_of_idle h ht
  obtain ⟨-, -, hsym⟩ := map_of_blen_eq hgroups hn h
  obtain ⟨herr', hslen', hsym'⟩ :=
    map_of_blen_eq (by rwa [hblen, hmode]) (by rwa [hcfg]) h'
  refine ⟨herr'.trans hidle', BitVec.eq_of_toNat_eq hslen', ?_⟩
  calc t'.readSym g
    _ = s'.symbolOfGroup g := hsym' g hg
    _ = s.symbolOfGroup g := State.symbolOfGroup_congr hcfg hmode hbits
    _ = t.readSym g := (hsym g hg).symm

/-- Settles O22: with `a` of `p` whole groups and `b` of `q`, group `g` of `a` is group `g` of `s`
and group `g` of `b` is group `p + g` of `s`. -/
theorem mapOfConcatenation : Obligations.MapOfConcatenation := by
  intro s a b t u v hacfg hbcfg hamode hbmode hak hlen habits hbbits _ haidle hbidle h ht ha hb
  obtain ⟨hgroups, hn⟩ := map_groups_of_idle h ht
  obtain ⟨-, -, hsym⟩ := map_of_blen_eq hgroups hn h
  have hadvd : s.mode.k ∣ a.blen.toNat := Nat.dvd_of_mod_eq_zero hak
  have hsdvd : s.mode.k ∣ a.blen.toNat + b.blen.toNat :=
    hlen ▸ hgroups ▸ Nat.dvd_mul_left _ _
  obtain ⟨p, hp⟩ := exists_eq_mul_left_of_dvd hadvd
  obtain ⟨q, hq⟩ := exists_eq_mul_left_of_dvd ((Nat.dvd_add_right hadvd).mp hsdvd)
  have hpq : t.slen.toNat = p + q := by
    refine Nat.eq_of_mul_eq_mul_right s.mode.k_pos ?_
    rw [← hgroups, hlen, hp, hq, Nat.add_mul]
  obtain ⟨haerr, haslen, hasym⟩ :=
    map_of_blen_eq (n := p) (by rw [hp, hamode]) (by rw [hacfg]; omega) ha
  obtain ⟨hberr, hbslen, hbsym⟩ :=
    map_of_blen_eq (n := q) (by rw [hq, hbmode]) (by rw [hbcfg]; omega) hb
  rw [hp] at habits hbbits
  rw [hq] at hbbits
  rw [haslen, hbslen]
  refine ⟨haerr.trans haidle, hberr.trans hbidle, hpq, fun g hg => ?_, fun g hg => ?_⟩
  · have hshift : s.symbolOfGroup (0 + g) = a.symbolOfGroup g :=
      State.symbolOfGroup_add hacfg hamode (by simpa using habits) hg
    rw [hsym g (by omega), hasym g hg, ← hshift, Nat.zero_add]
  · rw [hsym (p + g) (by omega), hbsym g hg, State.symbolOfGroup_add hbcfg hbmode hbbits hg]

/-! ### Empty and repeated result sequences -/

@[simp] theorem Memory.writeSeq_nil (m : Memory α) : m.writeSeq [] = m := by
  simp [Memory.writeSeq, numberFrom]

/-- A sequence written a second time changes nothing, in a memory of any form. -/
theorem Memory.writeSeq_writeSeq_self (m : Memory α) (vs : List α) :
    (m.writeSeq vs).writeSeq vs = m.writeSeq vs := by
  have hdropped : (numberFrom 0 vs).filter (fun c => decide (vs.length ≤ c.1)) = [] := by
    refine List.filter_eq_nil_iff.mpr fun c hc => ?_
    obtain ⟨hlt, -⟩ := mem_numberFrom hc
    simp only [decide_eq_true_eq]
    omega
  simp only [Memory.writeSeq, List.filter_append, hdropped, List.nil_append, List.filter_filter,
    Bool.and_self]

@[simp] theorem State.mappedSymbols_zero (s : State) : s.mappedSymbols 0 = [] := rfl

@[simp] theorem State.demappedBits_zero (s : State) : s.demappedBits 0 = [] := rfl

/-- Settles O23: no group and no symbol, so the sequence written is empty. -/
theorem emptySequencesComplete : Obligations.EmptySequencesComplete := by
  refine fun s => ⟨fun hblen => ?_, fun hslen => ?_⟩
  · have h : Completes .map s ((s.setSym s.sym).setSlen 0) := by
      simpa [hblen] using Completes.map (s := s) (by simp [hblen]) (by simp [hblen])
    exact h.exec_eq
  · have h : Completes .demap s ((s.setBit s.bit).setBlen 0) := by
      simpa [hslen] using Completes.demap (s := s) (by simp [hslen])
    exact h.exec_eq

namespace Completes

/-- Where SYM and SLEN hold MAP's result already, MAP completes and leaves them. -/
theorem map_self (hk : s.blen.toNat % s.mode.k = 0) (hn : s.blen.toNat / s.mode.k ≤ s.cfg.scap)
    (hsym : s.sym.writeSeq (s.mappedSymbols (s.blen.toNat / s.mode.k)) = s.sym)
    (hslen : BitVec.ofNat 24 (s.blen.toNat / s.mode.k) = s.slen) : Completes .map s s := by
  have h := Completes.map hk hn
  rw [hsym, hslen] at h
  exact h

/-- Where SMP and YLEN hold SHAPE's result already, SHAPE completes and leaves them. -/
theorem shape_self (hf : s.fst ≠ 0) (hs : s.slen ≠ 0) (hp : s.plen ≠ 0)
    (hn : s.shapeLength ≤ s.cfg.ycap)
    (hsmp : s.smp.writeSeq (s.shapedSamples s.shapeLength) = s.smp)
    (hylen : BitVec.ofNat 24 s.shapeLength = s.ylen) : Completes .shape s s := by
  have h := Completes.shape hf hs hp hn
  rw [hsmp, hylen] at h
  exact h

/-- MAP reads neither SYM nor SLEN, so after it they hold the result of a second MAP. -/
theorem map_again (h : Completes .map s u) : Completes .map u.complete u.complete := by
  cases h with
  | map hk hn => exact map_self hk hn (Memory.writeSeq_writeSeq_self _ _) rfl

/-- SHAPE reads neither SMP nor YLEN, so after it they hold the result of a second SHAPE. -/
theorem shape_again (h : Completes .shape s u) : Completes .shape u.complete u.complete := by
  cases h with
  | shape hf hs hp hn => exact shape_self hf hs hp hn (Memory.writeSeq_writeSeq_self _ _) rfl

end Completes

/-- Settles O24: what completes again with its own state as result changes only CP. -/
theorem mapAndShapeRepeat : Obligations.MapAndShapeRepeat := by
  intro i s t hi _ h ht
  obtain ⟨u, hu, rfl⟩ := completes_of_idle h ht
  rcases hi with rfl | rfl
  · exact hu.map_again.exec_eq
  · exact hu.shape_again.exec_eq

end Sys2Proof.Machine
end

section
/-! The decision (spec 42_demap.md rules R120, R122, R123, R125): the squared distance and its
width, and the scan as the one lowest nearest key, from which the laws of the decision follow. -/

namespace Sys2Proof

/-- Two values of width `n` differ by at most 2^n - 1 (rule R125). -/
theorem FitsSigned.abs_sub_le {n : Nat} (hn : 0 < n) {x y : Int} (hx : FitsSigned n x)
    (hy : FitsSigned n y) : |x - y| ≤ ((2 ^ n : Nat) : Int) - 1 := by
  have hpow : 2 ^ n = 2 * 2 ^ (n - 1) := by rw [← pow_succ', Nat.sub_add_cancel hn]
  obtain ⟨hxl, hxu⟩ := hx
  obtain ⟨hyl, hyu⟩ := hy
  rw [abs_le, hpow]
  constructor <;> omega

end Sys2Proof

namespace Sys2Proof.Machine

variable {p : Params} {m : Mode} {s s' : Cx}

/-! ### The squared distance -/

@[simp] theorem dist2_self (s : Cx) : dist2 s s = 0 := by simp [dist2]

theorem dist2_nonneg (s c : Cx) : 0 ≤ dist2 s c :=
  Int.add_nonneg (mul_self_nonneg _) (mul_self_nonneg _)

/-- Only a symbol itself is at distance 0 from it. -/
theorem dist2_eq_zero {s c : Cx} : dist2 s c = 0 ↔ s = c := by
  obtain ⟨a, b⟩ := s
  obtain ⟨x, y⟩ := c
  rw [dist2, mul_self_add_mul_self_eq_zero, sub_eq_zero, sub_eq_zero, Cx.mk.injEq]

/-- An entry without imaginary part: the imaginary part of the symbol adds its square
(rule R121, corner cases). -/
theorem dist2_of_im_eq_zero {c : Cx} (h : c.im = 0) (x y : Int) :
    dist2 ⟨x, y⟩ c = (x - c.re) * (x - c.re) + y * y := by rw [dist2, h, sub_zero]

/-- Settles O26: with `top` the bound on a difference, each square is at most `top * top`. -/
theorem distancesStayInWidth : Obligations.DistancesStayInWidth := by
  intro c a b ⟨har, hai⟩ ⟨hbr, hbi⟩ top
  have hw : 0 < c.w := by have := c.legal.width; omega
  have hre : |a.re - b.re| ≤ top := har.abs_sub_le hw hbr
  have him : |a.im - b.im| ≤ top := hai.abs_sub_le hw hbi
  have hsquare {d : Int} (hd : |d| ≤ top) : 0 ≤ d * d ∧ d * d ≤ top * top :=
    ⟨mul_self_nonneg d, abs_mul_abs_self d ▸ mul_self_le_mul_self (abs_nonneg d) hd⟩
  have hdist : dist2 a b ≤ 2 * (top * top) :=
    (add_le_add (hsquare hre).2 (hsquare him).2).trans_eq (two_mul _).symm
  have hwidth : 2 * (top * top) < ((2 ^ (2 * c.w + 1) : Nat) : Int) := by
    have htop : 0 ≤ top := (abs_nonneg _).trans hre
    calc 2 * (top * top)
      _ < 2 * ((top + 1) * (top + 1)) := by nlinarith
      _ = ((2 ^ (2 * c.w + 1) : Nat) : Int) := by
        rw [Int.sub_add_cancel, ← Nat.cast_mul, ← pow_add, ← two_mul, pow_succ']
        rfl
  exact ⟨abs_le.mp hre, abs_le.mp him, hsquare hre, hsquare him, dist2_nonneg a b, hdist,
    hdist.trans_lt hwidth⟩

/-! ### The scan -/

/-- Among the keys below `bound`, `n` is the lowest of those nearest to `s`: what the scan of
rule R122 holds after `bound` keys. -/
def LowestNearestBelow (p : Params) (m : Mode) (s : Cx) (bound n : Nat) : Prop :=
  n < bound ∧ (∀ a < bound, dist2 s (p.cromAt m n) ≤ dist2 s (p.cromAt m a)) ∧
    ∀ a < n, dist2 s (p.cromAt m n) < dist2 s (p.cromAt m a)

/-- Over all keys of the mode that is the decision. -/
theorem isDecision_iff_lowestNearestBelow {n : Nat} :
    IsDecision p m s n ↔ LowestNearestBelow p m s m.size n := by
  constructor
  · intro ⟨⟨hn, hle⟩, hlow⟩
    refine ⟨hn, hle, fun a ha => lt_of_not_ge fun hge => hlow a ha ⟨ha.trans hn, fun b hb => ?_⟩⟩
    exact hge.trans (hle b hb)
  · intro ⟨hn, hle, hlt⟩
    exact ⟨⟨hn, hle⟩, fun a ha ⟨_, hnear⟩ => (hlt a ha).not_ge (hnear n hn)⟩

/-- The scan keeps the candidate the lowest nearest of the keys it has seen. -/
theorem scanKeys_lowestNearestBelow (count : Nat) {n best : Nat}
    (h : LowestNearestBelow p m s n best) :
    LowestNearestBelow p m s (n + count)
      (scanKeys p m s count n best (dist2 s (p.cromAt m best))) := by
  induction count generalizing n best with
  | zero => exact h
  | succ count ih =>
    obtain ⟨hbest, hle, hlt⟩ := h
    rw [scanKeys, show n + (count + 1) = n + 1 + count by omega]
    split
    next hnearer =>
      refine ih ⟨n.lt_succ_self, fun a ha => ?_, fun a ha => hnearer.trans_le (hle a ha)⟩
      rcases Nat.lt_succ_iff_lt_or_eq.mp ha with ha | rfl
      · exact hnearer.le.trans (hle a ha)
      · exact le_rfl
    next hfarther =>
      refine ih ⟨hbest.trans n.lt_succ_self, fun a ha => ?_, hlt⟩
      rcases Nat.lt_succ_iff_lt_or_eq.mp ha with ha | rfl
      · exact hle a ha
      · exact not_lt.mp hfarther

/-- The scan starts with key 0 as the candidate among key 0 alone. -/
theorem nearestKey_isDecision (p : Params) (m : Mode) (s : Cx) :
    IsDecision p m s (nearestKey p m s) := by
  have hstart : LowestNearestBelow p m s 1 0 := by simp [LowestNearestBelow]
  have h := scanKeys_lowestNearestBelow (m.size - 1) hstart
  rw [Nat.add_sub_cancel' m.size_pos] at h
  exact isDecision_iff_lowestNearestBelow.mpr h

theorem nearestKey_lt (p : Params) (m : Mode) (s : Cx) : nearestKey p m s < m.size :=
  (nearestKey_isDecision p m s).1.1

/-- Of two decisions neither is below the other. -/
theorem IsDecision.unique {n n' : Nat} (h : IsDecision p m s n) (h' : IsDecision p m s n') :
    n = n' := by
  rcases Nat.lt_trichotomy n n' with hlt | heq | hgt
  · exact absurd h.1 (h'.2 n hlt)
  · exact heq
  · exact absurd h'.1 (h.2 n' hgt)

/-- Settles O25: the scan finds a decision, and there is only one. -/
theorem nearestKeyIsTheLowestNearest : Obligations.NearestKeyIsTheLowestNearest :=
  fun p m s _ => ⟨fun h => h.unique (nearestKey_isDecision p m s),
    fun h => h ▸ nearestKey_isDecision p m s⟩

/-! ### The decisions of particular symbols and tables -/

/-- Two symbols that compare the table's entries alike are decided alike. -/
theorem nearestKey_congr
    (h : ∀ a < m.size, ∀ b < m.size, dist2 s (p.cromAt m a) ≤ dist2 s (p.cromAt m b) ↔
      dist2 s' (p.cromAt m a) ≤ dist2 s' (p.cromAt m b)) :
    nearestKey p m s = nearestKey p m s' := by
  have hnearest (n : Nat) : IsNearest p m s n ↔ IsNearest p m s' n :=
    and_congr_right fun hn => forall₂_congr fun a ha => h n hn a ha
  obtain ⟨hnear, hlow⟩ := nearestKey_isDecision p m s
  exact IsDecision.unique
    ⟨(hnearest _).mp hnear, fun a ha => (hnearest a).not.mp (hlow a ha)⟩
    (nearestKey_isDecision p m s')

/-- Settles O28: in a real table the imaginary part adds the same to every distance. -/
theorem realTablesIgnoreTheImaginaryPart : Obligations.RealTablesIgnoreTheImaginaryPart := by
  intro p m x y y' hreal
  refine nearestKey_congr fun a ha b hb => ?_
  rw [dist2_of_im_eq_zero (hreal a ha), dist2_of_im_eq_zero (hreal b hb),
    dist2_of_im_eq_zero (hreal a ha), dist2_of_im_eq_zero (hreal b hb),
    add_le_add_iff_right, add_le_add_iff_right]

/-- Settles O29: the decision is no farther from the entry than the entry itself, so it is at
distance 0, and distinct keys have distinct entries (rule R102). -/
theorem tableEntryDecidesItsOwnKey : Obligations.TableEntryDecidesItsOwnKey := by
  intro c m n hn
  obtain ⟨⟨hkey, hle⟩, -⟩ := nearestKey_isDecision c.toParams m (c.cromAt m n)
  have hzero : dist2 (c.cromAt m n) (c.cromAt m (nearestKey c.toParams m (c.cromAt m n))) = 0 :=
    le_antisymm ((hle n hn).trans_eq (dist2_self _)) (dist2_nonneg _ _)
  exact (c.cromAt_inj m hn hkey (dist2_eq_zero.mp hzero)).symm

end Sys2Proof.Machine
end

section
/-! DEMAP (spec 42_demap.md rules R121, R124, R126, R127): the bits of a key invert the key of a bit
group, and a DEMAP that completes leaves as group `j` the bits of the decision of symbol `j`. -/

namespace Sys2Proof.Machine

variable {s s' t u : State}

/-! ### Keys and their bits (rules R12, R124) -/

/-- A bit keeps the parity of the key shifted down to it. -/
theorem bitsOfKey_eq_map (k n : Nat) :
    bitsOfKey k n = (List.range k).map fun i => BitVec.ofNat 1 (n / 2 ^ (k - 1 - i)) := by
  refine List.map_congr_left fun i _ => BitVec.eq_of_toNat_eq ?_
  rw [Nat.shiftRight_eq_div_pow, Nat.and_one_is_mod, BitVec.toNat_ofNat, BitVec.toNat_ofNat]
  exact Nat.mod_mod _ 2

/-- The least significant bit of a key is the last of its bits. -/
theorem bitsOfKey_succ (k n : Nat) :
    bitsOfKey (k + 1) n = bitsOfKey k (n / 2) ++ [BitVec.ofNat 1 n] := by
  have hshift : ∀ i ∈ List.range k, BitVec.ofNat 1 (n / 2 ^ (k + 1 - 1 - i)) =
      BitVec.ofNat 1 (n / 2 / 2 ^ (k - 1 - i)) := by
    intro i hi
    have hexp : k + 1 - 1 - i = k - 1 - i + 1 := by
      have := List.mem_range.mp hi
      omega
    rw [hexp, pow_succ', Nat.div_div_eq_div_mul]
  rw [bitsOfKey_eq_map, bitsOfKey_eq_map, List.range_succ, List.map_append,
    List.map_congr_left hshift]
  simp

/-- Spelling a key and reading it back gives the key. -/
theorem keyFrom_bitsOfKey {k n : Nat} (h : n < 2 ^ k) : keyFrom (bitsOfKey k n) = n := by
  induction k generalizing n with
  | zero => exact (Nat.lt_one_iff.mp h).symm
  | succ k ih =>
    rw [bitsOfKey_succ, keyFrom_append, ih (by rw [pow_succ] at h; omega), BitVec.toNat_ofNat]
    omega

/-- Reading a group and spelling its key gives the group. -/
theorem bitsOfKey_keyFrom (bits : List (BitVec 1)) :
    bitsOfKey bits.length (keyFrom bits) = bits := by
  induction bits using List.reverseRecOn with
  | nil => rfl
  | append_singleton bits b ih =>
    have hb := b.isLt
    have hhigh : (2 * keyFrom bits + b.toNat) / 2 = keyFrom bits := by omega
    have hlow : BitVec.ofNat 1 (2 * keyFrom bits + b.toNat) = b := by
      refine BitVec.eq_of_toNat_eq ?_
      rw [BitVec.toNat_ofNat]
      omega
    rw [List.length_append, List.length_singleton, bitsOfKey_succ, keyFrom_append, hhigh, hlow, ih]

/-! ### Groups of bits -/

/-- Bit `i` of group `j` is among the first `n` groups. -/
theorem groupIndex_lt {n k j i : Nat} (hj : j < n) (hi : i < k) : j * k + i < n * k :=
  calc j * k + i
    _ < (j + 1) * k := by rw [Nat.succ_mul]; omega
    _ ≤ n * k := Nat.mul_le_mul_right _ hj

/-- Equal groups have equal bits. -/
theorem State.bitGroup_eq_iff {g : Nat} (hmode : s'.mode = s.mode) :
    s'.bitGroup g = s.bitGroup g ↔
      ∀ i < s.mode.k, s'.readBit (g * s.mode.k + i) = s.readBit (g * s.mode.k + i) := by
  simp [State.bitGroup, hmode]

/-- Sequences whose first `n` groups are equal agree on the bits of those groups. -/
theorem State.readBit_eq_of_bitGroup_eq {n : Nat} (hmode : s'.mode = s.mode)
    (h : ∀ g < n, s'.bitGroup g = s.bitGroup g) {i : Nat} (hi : i < n * s.mode.k) :
    s'.readBit i = s.readBit i := by
  have hbits := (State.bitGroup_eq_iff hmode).mp
    (h (i / s.mode.k) ((Nat.div_lt_iff_lt_mul s.mode.k_pos).mpr hi)) _ (Nat.mod_lt i s.mode.k_pos)
  rwa [Nat.div_add_mod'] at hbits

/-- The bits of the symbol MAP writes for a group are that group (rule R126). -/
theorem State.bitsOfSymbol_of_readSym {g : Nat} (hcfg : s'.cfg = s.cfg) (hmode : s'.mode = s.mode)
    (hsym : s'.readSym g = s.symbolOfGroup g) : s'.bitsOfSymbol g = s.bitGroup g := by
  rw [State.bitsOfSymbol, hcfg, hmode, hsym, State.symbolOfGroup,
    tableEntryDecidesItsOwnKey _ _ _ (s.key_lt g)]
  exact s.bitGroup_length g ▸ bitsOfKey_keyFrom _

/-- MAP's symbol of a group that holds the bits of a symbol is the entry decided (rule R127). -/
theorem State.symbolOfGroup_of_bitGroup {j : Nat} (hcfg : s'.cfg = s.cfg) (hmode : s'.mode = s.mode)
    (hbits : s'.bitGroup j = s.bitsOfSymbol j) :
    s'.symbolOfGroup j =
      s.cfg.cromAt s.mode (nearestKey s.cfg.toParams s.mode (s.readSym j)) := by
  rw [State.symbolOfGroup, hcfg, hmode, hbits, State.bitsOfSymbol,
    keyFrom_bitsOfKey (nearestKey_lt _ _ _)]

/-! ### What DEMAP does -/

theorem exec_demap_of_lt (h : s.cfg.bcap < s.slen.toNat * s.mode.k) :
    exec .demap s = raise .capacity .demap s := if_pos h

/-- Bit `i` of symbol `j` stands behind the `j` groups before it. -/
theorem State.demappedBits_getElem? (s : State) {n j i : Nat} (hj : j < n) (hi : i < s.mode.k) :
    (s.demappedBits n)[j * s.mode.k + i]? = (s.bitsOfSymbol j)[i]? := by
  have hsucc (n : Nat) : s.demappedBits (n + 1) = s.demappedBits n ++ s.bitsOfSymbol n := by
    simp [State.demappedBits, List.range_succ]
  induction n with
  | zero => exact absurd hj j.not_lt_zero
  | succ n ih =>
    rw [hsucc]
    rcases Nat.lt_succ_iff_lt_or_eq.mp hj with hj | rfl
    · rw [List.getElem?_append_left
        ((groupIndex_lt hj hi).trans_eq (s.demappedBits_length n).symm), ih hj]
    · rw [List.getElem?_append_right (by rw [State.demappedBits_length]; omega),
        State.demappedBits_length, Nat.add_sub_cancel_left]

namespace Completes

theorem demap_le (h : Completes .demap s u) : s.slen.toNat * s.mode.k ≤ s.cfg.bcap := by
  cases h with
  | demap hn => exact hn

/-- BLEN holds the number of bits: it is within BCAP, so no bit is lost. -/
theorem demap_blen (h : Completes .demap s u) : u.blen.toNat = s.slen.toNat * s.mode.k := by
  cases h with
  | demap hn => exact toNat_ofNat_of_le hn s.cfg.legal.bitCells.2

theorem demap_readBit_of_le (h : Completes .demap s u) {a : Nat}
    (ha : s.slen.toNat * s.mode.k ≤ a) : u.readBit a = s.readBit a := by
  cases h with
  | demap hn =>
    rw [State.setBlen_readBit, State.setBit_readBit, Memory.read_writeSeq,
      State.demappedBits_length, if_neg ha.not_gt]
    rfl

theorem demap_readBit (h : Completes .demap s u) {j i : Nat} (hj : j < s.slen.toNat)
    (hi : i < s.mode.k) :
    u.readBit (j * s.mode.k + i) =
      BitVec.ofNat 1
        (nearestKey s.cfg.toParams s.mode (s.readSym j) / 2 ^ (s.mode.k - 1 - i)) := by
  cases h with
  | demap hn =>
    rw [State.setBlen_readBit, State.setBit_readBit, Memory.read_writeSeq,
      State.demappedBits_length, if_pos (groupIndex_lt hj hi), s.demappedBits_getElem? hj hi,
      State.bitsOfSymbol, bitsOfKey_eq_map]
    simp [hi]

theorem demap_cfg (h : Completes .demap s u) : u.cfg = s.cfg := by cases h; rfl

theorem demap_mode (h : Completes .demap s u) : u.mode = s.mode := by cases h; rfl

/-- Group `j` of the result holds the bits of symbol `j`. -/
theorem demap_bitGroup (h : Completes .demap s u) {j : Nat} (hj : j < s.slen.toNat) :
    u.bitGroup j = s.bitsOfSymbol j := by
  rw [State.bitGroup, h.demap_mode, State.bitsOfSymbol, bitsOfKey_eq_map]
  exact List.map_congr_left fun i hi => h.demap_readBit hj (List.mem_range.mp hi)

end Completes

/-- A DEMAP whose bits are within BCAP completes. -/
theorem demap_completes (hn : s.slen.toNat * s.mode.k ≤ s.cfg.bcap)
    (h : exec .demap s = .next t) : ∃ u, Completes .demap s u ∧ t = u.complete :=
  ⟨_, .demap hn, Host.Outcome.next.inj (h.symm.trans (Completes.demap hn).exec_eq)⟩

/-- Settles O27: the result of a DEMAP whose guard holds, its fault, and one of the cases of
rule R75. -/
theorem demapWritesTheBitsOfEachDecision : Obligations.DemapWritesTheBitsOfEachDecision := by
  refine fun s => ⟨fun hn => ?_, exec_demap_of_lt, fun w rest hs hidle hop hbits => ?_⟩
  · have h := Completes.demap hn
    refine ⟨_, h.exec_eq, h.demap_blen, fun j hj => ⟨_, nearestKey_isDecision _ _ _,
      fun i hi => ?_⟩, fun a => h.demap_readBit_of_le⟩
    exact (congrArg BitVec.toNat (h.demap_readBit hj hi)).trans (BitVec.toNat_ofNat _ _)
  · have hmem : w.toNat / 2 ^ 24 ∈ [0x10, 0x11, 0x12] := by rw [hop]; decide
    exact illegalWordsFaultIllegalCommand.2 s w rest hs hidle (.inr (.inl ⟨hmem, hbits⟩))

/-! ### The laws of DEMAP -/

/-- Settles O32: both states hold the same number of symbols, and symbol `j` has the same bits. -/
theorem demapBitsDependOnTheirSymbol : Obligations.DemapBitsDependOnTheirSymbol := by
  intro s s' t t' j i hcfg hmode hslen _ hidle' h ht h' hj hi hsym
  obtain ⟨u, hu, rfl⟩ := completes_of_idle h ht
  have hn' : s'.slen.toNat * s'.mode.k ≤ s'.cfg.bcap := by
    rw [hslen, hmode, hcfg]; exact hu.demap_le
  obtain ⟨u', hu', rfl⟩ := demap_completes hn' h'
  have hbit := hu'.demap_readBit (by rwa [hslen]) (by rwa [hmode])
  rw [hcfg, hmode, hsym] at hbit
  refine ⟨hu'.err_eq.trans hidle', BitVec.eq_of_toNat_eq ?_,
    hbit.trans (hu.demap_readBit hj hi).symm⟩
  calc u'.blen.toNat
    _ = s'.slen.toNat * s'.mode.k := hu'.demap_blen
    _ = s.slen.toNat * s.mode.k := by rw [hslen, hmode]
    _ = u.blen.toNat := hu.demap_blen.symm

/-- Settles O30: DEMAP decides each undisturbed symbol as the key MAP used, and so writes the
group's bits again. -/
theorem demapInvertsMap : Obligations.DemapInvertsMap := by
  intro s t t' hcap _ h ht hcfg hmode hslen hidle' hsame
  obtain ⟨hgroups, hn⟩ := map_groups_of_idle h ht
  obtain ⟨-, -, hmapped⟩ := map_of_blen_eq hgroups hn h
  obtain ⟨htcfg, -, -, htmode, -⟩ := onlyTheNamedCommandsWrite .map s t h
  have hcfg' : t'.cfg = s.cfg := hcfg.trans htcfg
  have hmode' : t'.mode = s.mode := hmode.trans (htmode nofun)
  have hbits : t'.slen.toNat * t'.mode.k = s.blen.toNat := by rw [hslen, hmode', hgroups]
  have hu := Completes.demap (s := t') (by rw [hbits, hcfg']; exact hcap)
  refine ⟨_, hu.exec_eq, hu.err_eq.trans hidle',
    BitVec.eq_of_toNat_eq (hu.demap_blen.trans hbits), fun i hi => ?_⟩
  refine State.readBit_eq_of_bitGroup_eq (hu.demap_mode.trans hmode') (fun g hg => ?_)
    (hi.trans_eq hgroups)
  calc _
    _ = t'.bitsOfSymbol g := hu.demap_bitGroup (by rwa [hslen])
    _ = s.bitGroup g :=
      State.bitsOfSymbol_of_readSym hcfg' hmode' ((hsame g hg).trans (hmapped g hg))

/-- Settles O31: the bits DEMAP leaves spell the decided keys, so MAP completes with their entries,
and the last DEMAP inverts that MAP. -/
theorem demapMapDemapGivesTheSameBits : Obligations.DemapMapDemapGivesTheSameBits := by
  intro s t hcap _ h ht
  obtain ⟨d, hd, rfl⟩ := completes_of_idle h ht
  have hcfg : d.complete.cfg = s.cfg := hd.demap_cfg
  have hmode : d.complete.mode = s.mode := hd.demap_mode
  have hblen : d.complete.blen.toNat = s.slen.toNat * d.complete.mode.k := by
    rw [hmode]; exact hd.demap_blen
  obtain ⟨u, hu⟩ := exec_answers .map d.complete
  obtain ⟨huerr, huslen, hmapped⟩ := map_of_blen_eq hblen (by rwa [hcfg]) hu
  have huidle : u.Idle := huerr.trans ht
  obtain ⟨v, hv, hvidle, hvblen, hvbits⟩ := demapInvertsMap d.complete u u
    (by rw [hblen, hmode, hcfg]; exact hd.demap_le) ht hu huidle rfl rfl rfl huidle fun _ _ => rfl
  refine ⟨u, v, hu, huidle, BitVec.eq_of_toNat_eq huslen,
    fun j hj => ⟨_, nearestKey_isDecision _ _ _, ?_⟩, hv, hvidle, hvblen, hvbits⟩
  exact (hmapped j hj).trans
    (State.symbolOfGroup_of_bitGroup hcfg hmode (hd.demap_bitGroup hj))

end Sys2Proof.Machine
end

section
/-! SHAPE (spec 43_pulse_and_shape.md rules R140 to R145). The exact arithmetic of complex pairs is
that of the Gaussian integers, so each form of an output sample is a finite sum in a commutative
ring, and the forms and laws of SHAPE are identities between such sums. -/

namespace Sys2Proof

/-- A complex pair as a Gaussian integer (rule R11). -/
def Cx.gauss (c : Cx) : GaussianInt := ⟨c.re, c.im⟩

@[simp] theorem Cx.gauss_zero : Cx.zero.gauss = 0 := rfl

@[simp] theorem Cx.gauss_add (a b : Cx) : (a.add b).gauss = a.gauss + b.gauss := rfl

@[simp] theorem Cx.gauss_mul (a b : Cx) : (a.mul b).gauss = a.gauss * b.gauss := by
  apply Zsqrtd.ext
  · simp only [Cx.gauss, Cx.mul, Zsqrtd.re_mul]
    ring
  · simp [Cx.gauss, Cx.mul]

theorem Cx.gauss_injective : Function.Injective Cx.gauss := by
  rintro ⟨a, b⟩ ⟨c, d⟩ h
  obtain ⟨rfl, rfl⟩ := Zsqrtd.ext_iff.mp h
  rfl

end Sys2Proof

namespace Sys2Proof.Machine
open Finset

variable {s t u : State} {x x' x'' p p' p'' : Nat → Cx} {n l f m : Nat}

/-! ### The forms of a sample as sums -/

theorem gauss_foldl_add (g : Nat → Cx) (is : List Nat) (acc : Cx) :
    (is.foldl (fun acc i => acc.add (g i)) acc).gauss =
      acc.gauss + (is.map fun i => (g i).gauss).sum := by
  induction is generalizing acc with
  | nil => simp
  | cons i is ih => simp [ih, add_assoc]

theorem gauss_sumCx (n : Nat) (g : Nat → Cx) : (sumCx n g).gauss = ∑ k ∈ range n, (g k).gauss := by
  rw [sumCx, gauss_foldl_add, Cx.gauss_zero, zero_add]
  rfl

/-- The direct form (rule R142), term by term. -/
theorem gauss_directSample (x p : Nat → Cx) (n l f m : Nat) :
    (directSample x n p l f m).gauss =
      ∑ k ∈ range n,
        if k * f ≤ m ∧ m - k * f < l then (x k).gauss * (p (m - k * f)).gauss else 0 := by
  simp only [directSample, gauss_sumCx, apply_ite Cx.gauss, Cx.gauss_mul, Cx.gauss_zero]

/-- The direct form without its zero terms. -/
theorem gauss_directSample_covering (x p : Nat → Cx) (n l f m : Nat) :
    (directSample x n p l f m).gauss =
      ∑ k ∈ coveringSymbols n l f m, (x k).gauss * (p (m - k * f)).gauss := by
  rw [gauss_directSample, coveringSymbols, sum_filter]

theorem mem_coveringSymbols {k : Nat} :
    k ∈ coveringSymbols n l f m ↔ k < n ∧ k * f ≤ m ∧ m - k * f < l := by
  rw [coveringSymbols, mem_filter, mem_range]

/-- A sample of the direct form is a function of the symbols below SLEN and the taps below PLEN. -/
theorem directSample_congr (hx : ∀ k < n, x' k = x k) (hp : ∀ j < l, p' j = p j) (f m : Nat) :
    directSample x' n p' l f m = directSample x n p l f m := by
  refine Cx.gauss_injective ?_
  rw [gauss_directSample_covering, gauss_directSample_covering]
  refine sum_congr rfl fun k hk => ?_
  obtain ⟨hkn, -, htap⟩ := mem_coveringSymbols.mp hk
  rw [hx k hkn, hp _ htap]

/-! ### Upsampling and convolution (rule R141) -/

@[simp] theorem upsampled_mul (x : Nat → Cx) (hf : 0 < f) {k : Nat} (hk : k < n) :
    upsampled x n f (k * f) = x k := by
  simp [upsampled, hf, hk]

/-- The terms of the convolution at indices that hold no symbol are 0. -/
theorem convolved_upsampled (x p : Nat → Cx) (l m : Nat) (hn : 0 < n) (hf : 0 < f) :
    convolved (upsampled x n f) ((n - 1) * f + 1) p l m = directSample x n p l f m := by
  refine Cx.gauss_injective ?_
  rw [convolved, gauss_sumCx, gauss_directSample]
  refine (sum_of_injOn (· * f) (fun i _ j _ h => Nat.eq_of_mul_eq_mul_right hf h) ?_ ?_ ?_).symm
  · intro k hk
    have hk : k < n := by simpa using hk
    have : k * f ≤ (n - 1) * f := Nat.mul_le_mul_right f (by omega)
    simp only [coe_range, Set.mem_Iio]
    omega
  · intro i _ hi
    have hzero : upsampled x n f i = Cx.zero := by
      refine if_neg fun ⟨hmod, hlt⟩ => hi ⟨i / f, by simpa using hlt, ?_⟩
      exact Nat.div_mul_cancel (Nat.dvd_of_mod_eq_zero hmod)
    simp [hzero, apply_ite Cx.gauss]
  · intro k hk
    simp [apply_ite Cx.gauss, upsampled_mul x hf (mem_range.mp hk)]

/-! ### The polyphase form (rule R145) -/

theorem polyphaseTerms_nodup (n l f m : Nat) : (polyphaseTerms n l f m).Nodup :=
  List.nodup_range.filter _

theorem mem_polyphaseTerms {k : Nat} :
    k ∈ polyphaseTerms n l f m ↔ k ≤ m / f ∧ m % f + k * f < l ∧ m / f - k < n := by
  simp [polyphaseTerms]

/-- The taps of one phase are FST apart, so at most ceil(PLEN / FST) of them are below PLEN. -/
theorem length_polyphaseTerms_le (n l m : Nat) (hf : 0 < f) :
    (polyphaseTerms n l f m).length ≤ (l + f - 1) / f := by
  have hsub : polyphaseTerms n l f m ⊆ List.range ((l + f - 1) / f) := by
    intro k hk
    obtain ⟨-, htap, -⟩ := mem_polyphaseTerms.mp hk
    rw [List.mem_range, ← Nat.succ_le_iff, Nat.le_div_iff_mul_le hf, Nat.succ_mul]
    omega
  simpa using (List.subperm_of_subset (polyphaseTerms_nodup n l f m) hsub).length_le

/-- Symbol `k` meets sample `q * f + r` at tap `r + (q - k) * f`. -/
theorem sub_mul_period {k : Nat} (hk : k ≤ m / f) : m - k * f = m % f + (m / f - k) * f := by
  have hle := Nat.mul_le_mul_right f hk
  have := Nat.mod_add_div' m f
  rw [Nat.sub_mul]
  omega

/-- The symbols that cover a sample, by the tap of the sample's phase they meet it at. -/
theorem mem_coveringSymbols_phase (hf : 0 < f) {k : Nat} :
    k ∈ coveringSymbols n l f m ↔ k < n ∧ k ≤ m / f ∧ m % f + (m / f - k) * f < l := by
  rw [mem_coveringSymbols, ← Nat.le_div_iff_mul_le hf]
  exact and_congr_right fun _ => and_congr_right fun hk => by rw [sub_mul_period hk]

/-- Symbol `k` is that of polyphase term `m / f - k`. -/
theorem polyphaseSample_eq_directSample (x p : Nat → Cx) (n l m : Nat) (hf : 0 < f) :
    polyphaseSample x n p l f m = directSample x n p l f m := by
  refine Cx.gauss_injective ?_
  rw [polyphaseSample, gauss_foldl_add, Cx.gauss_zero, zero_add,
    ← List.sum_toFinset _ (polyphaseTerms_nodup n l f m), gauss_directSample_covering]
  have hback {k : Nat} (hk : k ≤ m / f) : m / f - (m / f - k) = k := Nat.sub_sub_self hk
  refine sum_nbij' (m / f - ·) (m / f - ·) (fun k hk => ?_) (fun k hk => ?_) (fun k hk => ?_)
    (fun k hk => ?_) fun k hk => ?_
  · obtain ⟨hq, htap, hkn⟩ := mem_polyphaseTerms.mp (List.mem_toFinset.mp hk)
    exact (mem_coveringSymbols_phase hf).mpr ⟨hkn, Nat.sub_le _ _, by rwa [hback hq]⟩
  · obtain ⟨hkn, hq, htap⟩ := (mem_coveringSymbols_phase hf).mp hk
    exact List.mem_toFinset.mpr
      (mem_polyphaseTerms.mpr ⟨Nat.sub_le _ _, htap, by rwa [hback hq]⟩)
  · exact hback (mem_polyphaseTerms.mp (List.mem_toFinset.mp hk)).1
  · exact hback ((mem_coveringSymbols_phase hf).mp hk).2.1
  · obtain ⟨hq, -, -⟩ := mem_polyphaseTerms.mp (List.mem_toFinset.mp hk)
    rw [Cx.gauss_mul, sub_mul_period (Nat.sub_le _ _), hback hq]

/-! ### Pulses no longer than the symbol period (rule R140, corner cases) -/

/-- With PLEN at most FST only symbol `k` can cover the samples of its own period. -/
theorem mem_coveringSymbols_period {i k j : Nat} (hl : l ≤ f) (hj : j < f) :
    i ∈ coveringSymbols n l f (k * f + j) ↔ i = k ∧ k < n ∧ j < l := by
  have hf : 0 < f := by omega
  obtain ⟨hdiv, hmod⟩ : (k * f + j) / f = k ∧ (k * f + j) % f = j :=
    (Nat.div_mod_unique hf).mpr ⟨by ring, hj⟩
  rw [mem_coveringSymbols_phase hf, hdiv, hmod]
  constructor
  · rintro ⟨hin, hik, htap⟩
    have hzero : k - i = 0 := by
      by_contra hne
      have := Nat.le_mul_of_pos_left f (Nat.pos_of_ne_zero hne)
      omega
    obtain rfl : i = k := by omega
    exact ⟨rfl, hin, by omega⟩
  · rintro ⟨rfl, hin, htap⟩
    simpa using ⟨hin, htap⟩

theorem directSample_eq_mul (x p : Nat → Cx) {k j : Nat} (hl : l ≤ f) (hk : k < n) (hj : j < l) :
    directSample x n p l f (k * f + j) = (x k).mul (p j) := by
  have hcover : coveringSymbols n l f (k * f + j) = {k} := by
    ext i
    simp [mem_coveringSymbols_period hl (hj.trans_le hl), hk, hj]
  refine Cx.gauss_injective ?_
  rw [gauss_directSample_covering, hcover, sum_singleton, Nat.add_sub_cancel_left, Cx.gauss_mul]

theorem directSample_eq_zero_of_gap (x p : Nat → Cx) (n k : Nat) {j : Nat} (hl : l ≤ j)
    (hj : j < f) : directSample x n p l f (k * f + j) = Cx.zero := by
  have hcover : coveringSymbols n l f (k * f + j) = ∅ := by
    ext i
    simp [mem_coveringSymbols_period (hl.trans hj.le) hj, hl.not_gt]
  refine Cx.gauss_injective ?_
  rw [gauss_directSample_covering, hcover, sum_empty, Cx.gauss_zero]

/-! ### Linearity and delay (rule R144) -/

theorem directSample_add_symbols (hx : ∀ k < n, x k = (x' k).add (x'' k)) (p : Nat → Cx)
    (l f m : Nat) :
    directSample x n p l f m = (directSample x' n p l f m).add (directSample x'' n p l f m) := by
  refine Cx.gauss_injective ?_
  rw [Cx.gauss_add, gauss_directSample_covering, gauss_directSample_covering,
    gauss_directSample_covering, ← sum_add_distrib]
  refine sum_congr rfl fun k hk => ?_
  rw [hx k (mem_coveringSymbols.mp hk).1, Cx.gauss_add, add_mul]

theorem directSample_add_pulses (hp : ∀ j < l, p j = (p' j).add (p'' j)) (x : Nat → Cx)
    (n f m : Nat) :
    directSample x n p l f m = (directSample x n p' l f m).add (directSample x n p'' l f m) := by
  refine Cx.gauss_injective ?_
  rw [Cx.gauss_add, gauss_directSample_covering, gauss_directSample_covering,
    gauss_directSample_covering, ← sum_add_distrib]
  refine sum_congr rfl fun k hk => ?_
  rw [hp _ (mem_coveringSymbols.mp hk).2.2, Cx.gauss_add, mul_add]

/-- A leading symbol (0, 0) contributes nothing, and the others are one place further on. -/
theorem gauss_directSample_of_zero (h0 : x 0 = Cx.zero) (p : Nat → Cx) (n l f m : Nat) :
    (directSample x (n + 1) p l f m).gauss =
      ∑ k ∈ range n, if (k + 1) * f ≤ m ∧ m - (k + 1) * f < l then
        (x (k + 1)).gauss * (p (m - (k + 1) * f)).gauss else 0 := by
  rw [gauss_directSample, sum_range_succ', h0]
  simp

theorem directSample_lead (h0 : x 0 = Cx.zero) (p : Nat → Cx) (n l : Nat) (hm : m < f) :
    directSample x (n + 1) p l f m = Cx.zero := by
  refine Cx.gauss_injective ?_
  rw [gauss_directSample_of_zero h0, Cx.gauss_zero]
  refine sum_eq_zero fun k _ => if_neg fun ⟨hle, _⟩ => ?_
  rw [Nat.succ_mul] at hle
  omega

theorem directSample_delay (h0 : x 0 = Cx.zero) (p : Nat → Cx) (n l f m : Nat) :
    directSample x (n + 1) p l f (m + f) = directSample (fun k => x (k + 1)) n p l f m := by
  refine Cx.gauss_injective ?_
  simp only [gauss_directSample_of_zero h0, gauss_directSample, Nat.succ_mul,
    Nat.add_sub_add_right, Nat.add_le_add_iff_right]

/-- A sample is a sum of products, and a product of real pairs is real. -/
theorem directSample_im_eq_zero (hx : ∀ k < n, (x k).im = 0) (hp : ∀ j < l, (p j).im = 0)
    (f m : Nat) : (directSample x n p l f m).im = 0 := by
  rw [directSample_im]
  refine sum_eq_zero fun k hk => ?_
  obtain ⟨hkn, -, htap⟩ := mem_coveringSymbols.mp hk
  simp [Cx.mul, hx k hkn, hp _ htap]

/-! ### What SHAPE does -/

theorem exec_shape_of_eq_zero (h : s.fst = 0 ∨ s.slen = 0 ∨ s.plen = 0) :
    exec .shape s = raise .invalidInput .shape s := if_pos h

theorem exec_shape_of_lt (hf : s.fst ≠ 0) (hs : s.slen ≠ 0) (hp : s.plen ≠ 0)
    (h : s.cfg.ycap < s.shapeLength) : exec .shape s = raise .capacity .shape s :=
  (if_neg (not_or.mpr ⟨hf, not_or.mpr ⟨hs, hp⟩⟩)).trans (if_pos h)

namespace Completes

theorem shape_fst_pos (h : Completes .shape s u) : 0 < s.fst.toNat := by
  cases h with
  | shape hf hs hp hn => exact BitVec.toNat_pos_of_ne_zero hf

theorem shape_slen_pos (h : Completes .shape s u) : 0 < s.slen.toNat := by
  cases h with
  | shape hf hs hp hn => exact BitVec.toNat_pos_of_ne_zero hs

/-- YLEN holds the number of samples: it is within YCAP, so no bit is lost. -/
theorem shape_ylen (h : Completes .shape s u) : u.ylen.toNat = s.shapeLength := by
  cases h with
  | shape hf hs hp hn => exact toNat_ofNat_of_le hn s.cfg.legal.smpCells.2

theorem shape_readSmp (h : Completes .shape s u) (m : Nat) :
    u.readSmp m =
      if m < s.shapeLength then
        directSample s.readSym s.slen.toNat s.readPls s.plen.toNat s.fst.toNat m
      else s.readSmp m := by
  cases h with
  | shape hf hs hp hn =>
    rw [State.setYlen_readSmp, State.setSmp_readSmp, Memory.read_writeSeq,
      State.shapedSamples_length]
    split
    · rw [State.shapedSamples_getElem? s ‹_›, Option.getD_some, State.sample_eq_directSample]
    · rfl

end Completes

/-- A SHAPE that answers an idle state left the direct form of `s`, one sample for each index below
YLEN, and had a symbol period and a symbol. -/
theorem shape_of_idle (h : exec .shape s = .next t) (ht : t.Idle) :
    0 < s.fst.toNat ∧ 0 < s.slen.toNat ∧ t.ylen.toNat = s.shapeLength ∧
      ∀ m < t.ylen.toNat, t.readSmp m =
        directSample s.readSym s.slen.toNat s.readPls s.plen.toNat s.fst.toNat m := by
  obtain ⟨u, hu, rfl⟩ := completes_of_idle h ht
  have hylen : u.complete.ylen.toNat = s.shapeLength := hu.shape_ylen
  exact ⟨hu.shape_fst_pos, hu.shape_slen_pos, hylen,
    fun m hm => (hu.shape_readSmp m).trans (if_pos (hm.trans_eq hylen))⟩

/-- Settles O33: the result of a SHAPE whose guards hold, its two faults, and one of the cases of
rule R75. -/
theorem shapeWritesTheDirectForm : Obligations.ShapeWritesTheDirectForm := by
  refine fun s => ⟨fun hf hs hp hn => ?_, exec_shape_of_eq_zero, exec_shape_of_lt,
    fun w rest hscript hidle hop hbits => ?_⟩
  · have h := Completes.shape hf hs hp hn
    exact ⟨_, h.exec_eq, h.shape_ylen, fun a ha => (h.shape_readSmp a).trans (if_pos ha),
      fun a ha => (h.shape_readSmp a).trans (if_neg ha.not_gt)⟩
  · have hmem : w.toNat / 2 ^ 24 ∈ [0x10, 0x11, 0x12] := by rw [hop]; decide
    exact illegalWordsFaultIllegalCommand.2 s w rest hscript hidle (.inr (.inl ⟨hmem, hbits⟩))

/-! ### The forms and laws of the samples SHAPE leaves -/

/-- Settles O34: the convolution is the direct form. -/
theorem shapeIsUpsampleThenConvolve : Obligations.ShapeIsUpsampleThenConvolve := by
  intro s t _ h ht m hm
  obtain ⟨hf, hs, -, hsmp⟩ := shape_of_idle h ht
  rw [hsmp m hm, convolved_upsampled _ _ _ _ hs hf]

/-- Settles O35: the polyphase form is the direct form, with the taps of one phase. -/
theorem shapeIsThePolyphaseFilter : Obligations.ShapeIsThePolyphaseFilter := by
  intro s t _ h ht m hm
  obtain ⟨hf, -, -, hsmp⟩ := shape_of_idle h ht
  exact ⟨(hsmp m hm).trans (polyphaseSample_eq_directSample _ _ _ _ _ hf).symm,
    length_polyphaseTerms_le _ _ _ hf⟩

/-- Settles O36: each of at most PLEN products is at most 2^(2W-1). -/
theorem samplesStayInWidth : Obligations.SamplesStayInWidth := by
  intro s m hf hplen hsym hpls bound y
  have hw := s.cfg.legal.width
  have hbound : (s.plen.toNat : Int) * ((2 ^ (2 * s.cfg.w - 1) : Nat) : Int) ≤ bound := by
    rw [← Nat.cast_mul]
    exact Int.ofNat_le.mpr (Nat.mul_le_mul_right _ hplen)
  obtain ⟨hre, him⟩ := directSample_within m (by omega : 1 ≤ s.cfg.w)
    (BitVec.toNat_pos_of_ne_zero hf) hsym hpls
  exact ⟨abs_le.mp (hre.trans hbound), abs_le.mp (him.trans hbound),
    Int.ofNat_le.mpr (sampleBound_le s.cfg)⟩

/-- Settles O37: a sample is covered by the symbol of its period or by none. -/
theorem shortPulsesDoNotOverlap : Obligations.ShortPulsesDoNotOverlap := by
  intro s t _ h ht hle
  obtain ⟨hf, hs, hylen, hsmp⟩ := shape_of_idle h ht
  rw [State.shapeLength] at hylen
  refine ⟨fun k hk j hj => ?_, fun k hk j hl hj => ?_⟩
  · have hperiod : k * s.fst.toNat ≤ (s.slen.toNat - 1) * s.fst.toNat :=
      Nat.mul_le_mul_right _ (by omega)
    rw [hsmp _ (by omega), directSample_eq_mul _ _ hle hk hj]
  · have hperiod : (k + 1) * s.fst.toNat ≤ (s.slen.toNat - 1) * s.fst.toNat :=
      Nat.mul_le_mul_right _ (by omega)
    rw [Nat.succ_mul] at hperiod
    rw [hsmp _ (by omega), directSample_eq_zero_of_gap _ _ _ _ hl hj, Cx.zero]

/-- Settles O38: the three results have the same length, and the sum of the products distributes
over the sums of the symbols or of the taps. -/
theorem shapeIsLinear : Obligations.ShapeIsLinear := by
  intro s a b t u v haf hbf has hbs hap hbp _ _ _ h ht ha hu hb hv hsum m hm
  obtain ⟨-, -, hylen, hsmp⟩ := shape_of_idle h ht
  obtain ⟨-, -, haylen, hasmp⟩ := shape_of_idle ha hu
  obtain ⟨-, -, hbylen, hbsmp⟩ := shape_of_idle hb hv
  have hma : m < u.ylen.toNat := by
    rwa [haylen, State.shapeLength, haf, has, hap, ← State.shapeLength, ← hylen]
  have hmb : m < v.ylen.toNat := by
    rwa [hbylen, State.shapeLength, hbf, hbs, hbp, ← State.shapeLength, ← hylen]
  rw [hsmp m hm, hasmp m hma, hbsmp m hmb, haf, has, hap, hbf, hbs, hbp]
  rcases hsum with ⟨hsym, hpls⟩ | ⟨hpls, hsym⟩
  · rw [directSample_add_symbols hsym,
      directSample_congr (fun _ _ => rfl) fun j hj => (hpls j hj).1,
      directSample_congr (fun _ _ => rfl) fun j hj => (hpls j hj).2]
  · rw [directSample_add_pulses hpls,
      directSample_congr (fun k hk => (hsym k hk).1) fun _ _ => rfl,
      directSample_congr (fun k hk => (hsym k hk).2) fun _ _ => rfl]

/-- Settles O39: the leading symbol adds FST to the length and nothing to a sample. -/
theorem shapeOfPrefixedZeroIsDelayed : Obligations.ShapeOfPrefixedZeroIsDelayed := by
  intro s a t u haf hap has h0 hsym hpls _ _ h ht ha hu
  obtain ⟨-, hs, hylen, hsmp⟩ := shape_of_idle h ht
  obtain ⟨-, -, haylen, hasmp⟩ := shape_of_idle ha hu
  have hdelay : u.ylen.toNat = t.ylen.toNat + s.fst.toNat := by
    obtain ⟨n, hn⟩ := Nat.exists_eq_succ_of_ne_zero hs.ne'
    rw [haylen, hylen, State.shapeLength, State.shapeLength, haf, hap, has, hn]
    simp only [Nat.succ_eq_add_one, Nat.add_sub_cancel, Nat.succ_mul]
    omega
  rw [haf, hap, has] at hasmp
  refine ⟨hdelay, fun m hm => ?_, fun m hm => ?_⟩
  · rw [hasmp m (by omega), directSample_lead h0 _ _ _ hm, Cx.zero]
  · rw [hasmp _ (by omega), directSample_delay h0, hsmp m hm, directSample_congr hsym hpls]

/-- Settles O40: every product is real. -/
theorem realInputsGiveRealSamples : Obligations.RealInputsGiveRealSamples := by
  intro s t _ h ht hsym hpls m hm
  obtain ⟨-, -, -, hsmp⟩ := shape_of_idle h ht
  rw [hsmp m hm, directSample_im_eq_zero hsym hpls]

end Sys2Proof.Machine
end

section
/-! The energies of the reference pulses (spec 43_pulse_and_shape.md rules R136 to R138, R147): the
powers of the sine as cosines of the multiples of its argument, whose sums over whole periods are
0. -/

namespace Sys2Proof.Machine
open Finset

variable {fsT : Nat}

/-! ### Sums of powers of the sine -/

/-- The argument of the reference pulses' sine at sample `n` (rules R136, R138). -/
noncomputable abbrev pulsePhase (fsT n : Nat) : ℝ := Real.pi * n / fsT

/-- `j` whole periods of the cosine, at more samples than periods, sum to 0. -/
theorem sum_cos_periods {j : Nat} (hj : 0 < j) (hlt : j < fsT) :
    ∑ n ∈ range fsT, Real.cos (2 * j * pulsePhase fsT n) = 0 := by
  have hN : (0 : ℝ) < fsT := by exact_mod_cast hj.trans hlt
  have hjpos : (0 : ℝ) < j := by exact_mod_cast hj
  have hjlt : (j : ℝ) < fsT := by exact_mod_cast hlt
  have hhalf : Real.pi * j / fsT < Real.pi := by
    rw [div_lt_iff₀ hN]
    exact mul_lt_mul_of_pos_left hjlt Real.pi_pos
  have hsin : Real.sin (2 * (Real.pi * j / fsT) / 2) ≠ 0 := by
    rw [mul_div_cancel_left₀ _ two_ne_zero]
    exact (Real.sin_pos_of_pos_of_lt_pi (by positivity) hhalf).ne'
  have hsum := Real.sin_mul_sum_cos fsT (2 * (Real.pi * j / fsT)) 0
  have hperiods : fsT * (2 * (Real.pi * j / fsT)) / 2 = j * Real.pi := by
    field_simp
  rw [hperiods, Real.sin_nat_mul_pi, zero_mul] at hsum
  rw [← (mul_eq_zero.mp hsum).resolve_left hsin]
  refine sum_congr rfl fun n _ => congrArg Real.cos ?_
  rw [pulsePhase]
  ring

theorem sum_sin_sq (h : 2 ≤ fsT) : ∑ n ∈ range fsT, Real.sin (pulsePhase fsT n) ^ 2 = fsT / 2 := by
  have hcos := sum_cos_periods one_pos h
  simp only [Nat.cast_one, mul_one] at hcos
  simp only [Real.sin_sq_eq_half_sub, sum_sub_distrib, ← sum_div, hcos, sum_const, card_range,
    nsmul_eq_mul]
  ring

/-- The fourth power of the sine holds the cosines of twice and of four times the argument. -/
theorem sin_pow_four (x : ℝ) :
    (Real.sin x ^ 2) ^ 2 = 3 / 8 - Real.cos (2 * x) / 2 + Real.cos (2 * 2 * x) / 8 := by
  have hdouble := Real.cos_sq (2 * x)
  rw [Real.sin_sq_eq_half_sub, mul_assoc]
  linear_combination hdouble / 4

theorem sum_sin_pow_four (h : 3 ≤ fsT) :
    ∑ n ∈ range fsT, (Real.sin (pulsePhase fsT n) ^ 2) ^ 2 = 3 * fsT / 8 := by
  have hcos := sum_cos_periods one_pos (by omega : 1 < fsT)
  have hcos' := sum_cos_periods two_pos h
  simp only [Nat.cast_one, Nat.cast_ofNat, mul_one] at hcos hcos'
  simp only [sin_pow_four, sum_add_distrib, sum_sub_distrib, ← sum_div, hcos, hcos', sum_const,
    card_range, nsmul_eq_mul]
  ring

/-! ### The energies -/

/-- A factor sqrt(c) on every sample is a factor c of the energy. -/
theorem energy_sqrt_mul {x y : Nat → ℝ} {c : ℝ} (hc : 0 ≤ c)
    (hx : ∀ n < fsT, x n = Real.sqrt c * y n) :
    ∑ n ∈ range fsT, x n ^ 2 = c * ∑ n ∈ range fsT, y n ^ 2 := by
  rw [mul_sum]
  refine sum_congr rfl fun n hn => ?_
  rw [hx n (mem_range.mp hn), mul_pow, Real.sq_sqrt hc]

theorem energy_rectangular {x : Nat → ℝ} (hT : 1 ≤ fsT) (hx : IsRectangularPulse fsT 1 x) :
    ∑ n ∈ range fsT, x n ^ 2 = 1 := by
  have hN : (fsT : ℝ) ≠ 0 := by exact_mod_cast (by omega : fsT ≠ 0)
  rw [energy_sqrt_mul (y := 1) (by positivity) fun n hn => (hx n hn).trans (mul_one _).symm]
  simp [hN]

theorem energy_halfSine {x : Nat → ℝ} (hT : 1 ≤ fsT) (hx : IsHalfSinePulse fsT 1 x) :
    ∑ n ∈ range fsT, x n ^ 2 = if fsT = 1 then 0 else 1 := by
  have hN : (fsT : ℝ) ≠ 0 := by exact_mod_cast (by omega : fsT ≠ 0)
  rw [energy_sqrt_mul (by positivity) hx]
  split
  next h1 => simp [h1]
  next h1 =>
    rw [sum_sin_sq (by omega)]
    field_simp

theorem energy_sineSquared {x : Nat → ℝ} (hT : 1 ≤ fsT) (hx : IsSineSquaredPulse fsT 1 x) :
    ∑ n ∈ range fsT, x n ^ 2 = if fsT = 1 then 0 else if fsT = 2 then 4 / 3 else 1 := by
  have hN : (fsT : ℝ) ≠ 0 := by exact_mod_cast (by omega : fsT ≠ 0)
  rw [energy_sqrt_mul (by positivity) hx]
  split
  next h1 => simp [h1]
  next h1 =>
    split
    next h2 => norm_num [h2, sum_range_succ]
    next h2 =>
      rw [sum_sin_pow_four (by omega)]
      field_simp

/-- Settles O41: the half-sine pulse at length 1 and the sine-squared pulse at lengths 1 and 2 are
too short for the cosines to cancel, and their samples are evaluated. -/
theorem referencePulseEnergies : Obligations.ReferencePulseEnergies :=
  ⟨fun _ _ => energy_rectangular, fun _ _ => energy_halfSine, fun _ _ => energy_sineSquared⟩

end Sys2Proof.Machine
end

section
/-! Faults (spec 60_exceptions.md): which command can raise which fault, what a fault writes, and
what a faulted or idle block does with the host's moves (rules R165, R167 to R169, R180, R181). -/

namespace Sys2Proof.Machine

/-! ### Which command can raise which fault -/

/-- The table of rule R181 for terms: a check of the command writes this code. What the check reads of
the state is left out. -/
inductive CanRaise : Instr → ErrCode → Prop where
  | setmode : CanRaise (.setmode 7) .illegalCommand
  | setblen (n : BitVec 24) : CanRaise (.setblen n) .capacity
  | setslen (n : BitVec 24) : CanRaise (.setslen n) .capacity
  | setplen (n : BitVec 24) : CanRaise (.setplen n) .capacity
  | mapInput : CanRaise .map .invalidInput
  | mapCapacity : CanRaise .map .capacity
  | demap : CanRaise .demap .capacity
  | shapeInput : CanRaise .shape .invalidInput
  | shapeCapacity : CanRaise .shape .capacity

/-- A command completes, or one of its own checks fails. -/
theorem completes_or_canRaise (i : Instr) (s : State) :
    (∃ u, Completes i s u) ∨ ∃ c, CanRaise i c ∧ exec i s = raise c i s := by
  cases i with
  | setmode m =>
    rcases modeOfNum_cases m with ⟨md, h, -⟩ | ⟨-, rfl⟩
    · exact .inl ⟨_, .setmode h⟩
    · exact .inr ⟨_, .setmode, exec_setmode_seven s⟩
  | setfst n => exact .inl ⟨_, .setfst n s⟩
  | setblen n =>
    rcases le_or_gt n.toNat s.cfg.bcap with h | h
    · exact .inl ⟨_, .setblen h⟩
    · exact .inr ⟨_, .setblen n, exec_setblen_of_lt h⟩
  | setslen n =>
    rcases le_or_gt n.toNat s.cfg.scap with h | h
    · exact .inl ⟨_, .setslen h⟩
    · exact .inr ⟨_, .setslen n, exec_setslen_of_lt h⟩
  | setplen n =>
    rcases le_or_gt n.toNat s.cfg.pcap with h | h
    · exact .inl ⟨_, .setplen h⟩
    · exact .inr ⟨_, .setplen n, exec_setplen_of_lt h⟩
  | map =>
    by_cases hk : s.blen.toNat % s.mode.k = 0
    · rcases le_or_gt (s.blen.toNat / s.mode.k) s.cfg.scap with h | h
      · exact .inl ⟨_, .map hk h⟩
      · exact .inr ⟨_, .mapCapacity, exec_map_of_lt hk h⟩
    · exact .inr ⟨_, .mapInput, exec_map_of_mod_ne hk⟩
  | demap =>
    rcases le_or_gt (s.slen.toNat * s.mode.k) s.cfg.bcap with h | h
    · exact .inl ⟨_, .demap h⟩
    · exact .inr ⟨_, .demap, exec_demap_of_lt h⟩
  | shape =>
    by_cases hz : s.fst = 0 ∨ s.slen = 0 ∨ s.plen = 0
    · exact .inr ⟨_, .shapeInput, exec_shape_of_eq_zero hz⟩
    · obtain ⟨hf, hs, hp⟩ := (not_or.mp hz).imp_right not_or.mp
      rcases le_or_gt s.shapeLength s.cfg.ycap with h | h
      · exact .inl ⟨_, .shape hf hs hp h⟩
      · exact .inr ⟨_, .shapeCapacity, exec_shape_of_lt hf hs hp h⟩

/-- ERR after a command is as before, or the code of one of the command's own checks. -/
theorem err_eq_or_canRaise {i : Instr} {s t : State} (h : exec i s = .next t) :
    t.err = s.err ∨ CanRaise i t.err := by
  rcases completes_or_canRaise i s with ⟨u, hu⟩ | ⟨c, hc, he⟩
  · obtain rfl := Host.Outcome.next.inj (hu.exec_eq.symm.trans h)
    exact .inl hu.err_eq
  · obtain rfl := Host.Outcome.next.inj (he.symm.trans h)
    exact .inr hc

/-- Settles O12: an idle block's ERR is none of the three codes before the command, so that the code
after it is of a check of the command. -/
theorem faultMatrix : Obligations.FaultMatrix := by
  intro i s t hidle h
  rcases err_eq_or_canRaise h with herr | hc
  · simp [herr.trans hidle]
  · generalize t.err = c at hc ⊢
    cases hc <;> simp

/-! ### What a fault writes -/

/-- A word whose issue leaves an idle block faulted wrote ERR and FCMD and nothing else
(rule R165). -/
theorem eq_raiseFault_of_issue {w : Word} {s t : State} (hidle : s.Idle)
    (h : issue w s = .next t) (ht : t.Faulted) : t = s.raiseFault t.err w := by
  rcases issue_cases w s with ⟨hf, -⟩ | ⟨-, e, -, he⟩ | ⟨-, i, hd, he⟩
  · exact absurd hidle hf
  · obtain rfl := Host.Outcome.next.inj (he.symm.trans h)
    rfl
  · rcases exec_next (he.symm.trans h) with ⟨c, -, rfl⟩ | ⟨u, hu, rfl⟩
    · rw [encode_of_decode hd, State.raiseFault_err]
    · exact absurd (hu.err_eq.trans hidle) ht

/-- Settles O10: the step takes the issue move, and the fault is entered in the state without it. -/
theorem faultsArePrecise : Obligations.FaultsArePrecise := by
  intro s t w rest hs hidle h ht
  rw [step_cons hs] at h
  exact eq_raiseFault_of_issue (s := s.setScript rest) hidle h ht

/-! ### The host's moves on a faulted and on an idle block -/

/-- A host write of rule R58 completes. -/
theorem takeMove_answers_of_isLegalWrite {mv : HostMove} {s : State}
    (h : mv.IsLegalWrite s.cfg) : ∃ t, takeMove mv s = .next t := by
  cases mv with
  | writeBit i v => exact ⟨_, writeBit_next.mpr ⟨h, rfl⟩⟩
  | writeSym i v => exact ⟨_, writeSym_next.mpr ⟨h.1, h.2, rfl⟩⟩
  | writePls i v => exact ⟨_, writePls_next.mpr ⟨h.1, h.2, rfl⟩⟩
  | _ => exact h.elim

/-- A move that asserts reset leaves the registers as reset does, whatever it does to an output
space (rules R185, R186). -/
theorem takeMove_of_isReset {mv : HostMove} (h : mv.isReset = true) (s : State) :
    ∃ u : State, takeMove mv s = .next u.resetRegisters := by
  cases mv with
  | reset => exact ⟨s, rfl⟩
  | resetDuring w =>
    rcases resetDuring_cases w s with he | ⟨i, -, -, he⟩
    · exact ⟨s, he⟩
    · exact ⟨s.forgetOutput i, he⟩
  | _ => exact absurd h Bool.false_ne_true

/-- Settles O9: the issue of a word to a faulted block has no effect, no other move but reset writes
a status register, and no legal access and no reset is refused. -/
theorem faultedBlockTakesNoCommand : Obligations.FaultedBlockTakesNoCommand := by
  refine ⟨fun s w rest hs hf => ?_, fun s t mv rest hs hf hr h => ?_,
    fun s mv rest hs _ hmv => ?_⟩
  · exact (step_cons hs).trans (issue_faulted (s := s.setScript rest) hf)
  · rw [step_cons hs] at h
    obtain ⟨-, herr, hfcmd, hcp⟩ := takeMove_sameStatus (s := s.setScript rest) hr (.inl hf) h
    exact ⟨herr, hfcmd, hcp⟩
  · rw [step_cons hs]
    by_cases hr : mv.isReset = true
    · obtain ⟨u, hu⟩ := takeMove_of_isReset hr (s.setScript rest)
      exact ⟨_, hu, fun _ => rfl⟩
    · suffices ∃ t, takeMove mv (s.setScript rest) = .next t from
        this.imp fun t ht => ⟨ht, fun h => absurd h hr⟩
      rcases hmv with hw | ⟨r, rfl⟩ | ⟨sp, i, rfl, hi⟩ | h
      · exact takeMove_answers_of_isLegalWrite hw
      · exact ⟨_, readRegister_next.mpr rfl⟩
      · exact ⟨_, readCell_next.mpr ⟨hi, rfl⟩⟩
      · exact absurd h hr

/-- Settles O50: a step with no move left holds the state. -/
theorem idleBlockHoldsItsState : Obligations.IdleBlockHoldsItsState := fun _ => step_nil

end Sys2Proof.Machine
end

section
/-! Reset (spec 70_reset_and_hazards.md rules R185 to R187) and the constants of a run (rules R15,
R189): what reset writes, alone and during a command, and that no move writes the configuration. -/

namespace Sys2Proof.Machine

variable {s t : State}

/-! ### Reset between commands -/

/-- The reset values of rule R37 all read 0. -/
@[simp] theorem State.readReg_resetRegisters (s : State) (r : Reg) :
    s.resetRegisters.readReg r = 0 := by cases r <;> rfl

/-- Settles O48: reset writes the nine registers and no other field. -/
theorem resetClearsRegistersKeepsMemories : Obligations.ResetClearsRegistersKeepsMemories :=
  fun _ _ hs => ⟨_, step_cons hs, State.readReg_resetRegisters _, rfl, rfl, rfl, rfl,
    fun _ => rfl, fun _ => rfl, fun _ => rfl, fun _ => rfl⟩

/-! ### Reset during a command -/

/-- The command executes, so that its output is forgotten before the registers are reset
(rule R186). -/
theorem resetDuring_encode {i : Instr} (hidle : s.Idle) (hwf : i.wf = true) :
    resetDuring (encode i) s = .next (s.forgetOutput i).resetRegisters := by
  simp only [resetDuring, if_pos hidle, decodeInvertsEncode i hwf]

/-- During a word that writes no space, reset is as between commands (rules R69, R186). -/
theorem resetDuring_of_ne {w : Word} (hmap : w ≠ encode .map) (hdemap : w ≠ encode .demap)
    (hshape : w ≠ encode .shape) : resetDuring w s = .next s.resetRegisters := by
  rcases resetDuring_cases w s with he | ⟨i, -, hd, he⟩
  · exact he
  · obtain rfl := encode_of_decode hd
    cases i with
    | map => exact absurd rfl hmap
    | demap => exact absurd rfl hdemap
    | shape => exact absurd rfl hshape
    | _ => exact he

/-- Settles O49: by cases on the word: that of one of the three commands that write a space, or a word
that writes none. -/
theorem resetDuringCommandSparesOtherSpaces : Obligations.ResetDuringCommandSparesOtherSpaces := by
  intro s w rest hs hidle
  replace hidle : (s.setScript rest).Idle := hidle
  rw [step_cons hs]
  by_cases hmap : w = 0x10000000#32
  · subst hmap
    exact ⟨_, resetDuring_encode (i := .map) hidle rfl,
      by simp [State.forgetOutput, Memory.read_forget]⟩
  by_cases hdemap : w = 0x11000000#32
  · subst hdemap
    exact ⟨_, resetDuring_encode (i := .demap) hidle rfl,
      by simp [State.forgetOutput, Memory.read_forget]⟩
  by_cases hshape : w = 0x12000000#32
  · subst hshape
    exact ⟨_, resetDuring_encode (i := .shape) hidle rfl,
      by simp [State.forgetOutput, Memory.read_forget]⟩
  exact ⟨_, resetDuring_of_ne hmap hdemap hshape, by simp [hmap, hdemap, hshape]⟩

/-! ### The configuration -/

theorem State.forgetOutput_cfg (s : State) (i : Instr) : (s.forgetOutput i).cfg = s.cfg := by
  cases i <;> rfl

theorem exec_cfg {i : Instr} (h : exec i s = .next t) : t.cfg = s.cfg := by
  rcases exec_cases i s with ⟨c, -, he⟩ | ⟨u, he, -, -, -, hcfg, -⟩
  · obtain rfl := Host.Outcome.next.inj (he.symm.trans h)
    rfl
  · obtain rfl := Host.Outcome.next.inj (he.symm.trans h)
    exact hcfg

theorem issue_cfg {w : Word} (h : issue w s = .next t) : t.cfg = s.cfg := by
  rcases issue_cases w s with ⟨-, he⟩ | ⟨-, e, -, he⟩ | ⟨-, i, -, he⟩
  · obtain rfl := Host.Outcome.next.inj (he.symm.trans h)
    rfl
  · obtain rfl := Host.Outcome.next.inj (he.symm.trans h)
    rfl
  · exact exec_cfg (he.symm.trans h)

theorem resetDuring_cfg {w : Word} (h : resetDuring w s = .next t) : t.cfg = s.cfg := by
  rcases resetDuring_cases w s with he | ⟨i, -, -, he⟩
  · obtain rfl := Host.Outcome.next.inj (he.symm.trans h)
    rfl
  · obtain rfl := Host.Outcome.next.inj (he.symm.trans h)
    exact s.forgetOutput_cfg i

/-- No move of the host writes CROM or another parameter (rules R15, R58, R189). -/
theorem takeMove_cfg {mv : HostMove} (h : takeMove mv s = .next t) : t.cfg = s.cfg := by
  cases mv with
  | writeBit i v =>
    obtain ⟨-, rfl⟩ := writeBit_next.mp h
    rfl
  | writeSym i v =>
    obtain ⟨-, -, rfl⟩ := writeSym_next.mp h
    rfl
  | writePls i v =>
    obtain ⟨-, -, rfl⟩ := writePls_next.mp h
    rfl
  | readCell sp i =>
    obtain ⟨-, rfl⟩ := readCell_next.mp h
    rfl
  | readReg r =>
    obtain rfl := readRegister_next.mp h
    rfl
  | issue w => exact issue_cfg h
  | reset =>
    obtain rfl := Host.Outcome.next.inj h
    rfl
  | resetDuring w => exact resetDuring_cfg h

theorem step_cfg (h : step s = .next t) : t.cfg = s.cfg := by
  cases hs : s.script with
  | nil =>
    obtain rfl := Host.Outcome.next.inj ((step_nil hs).symm.trans h)
    rfl
  | cons mv rest => exact takeMove_cfg (s := s.setScript rest) ((step_cons hs).symm.trans h)

/-- Settles O51: the tables are part of the configuration, which no step writes. -/
theorem tablesNeverChange : Obligations.TablesNeverChange := by
  intro s t h
  have hcfg := step_cfg h
  exact ⟨hcfg, fun m n => by rw [hcfg]⟩

end Sys2Proof.Machine
end
